-- ==== Sys2Proof/Word.lean ====
section
/-! DEFINITION. The words the manual treats as bits: the bytes that travel in packets, and the 16-bit counters and
checks that wrap. Numbers the manual counts, compares and adds exactly (coordinates, sizes, tallies) are `Nat` or `Int`. -/

namespace Sys2Proof

/-- One byte of packet content or of the image store. -/
abbrev Byte := BitVec 8

/-- A 16-bit value that wraps: the frame counter (R101), the active generation number (R33), a commit target (R24), the
CRC (R166). -/
abbrev Word16 := BitVec 16

end Sys2Proof
end

