-- ==== Sys2Proof/Config.lean ====
section
/-! DEFINITION. What the part fixes: the capacities of 00_scope.md ("Capacities") and the numbers of the identity reply.
The manual leaves no result undefined, so there is no opaque free value here. -/

namespace Sys2Proof.Config

/-- Object records per generation (R1). -/
def objectCount : Nat := 64
/-- Image directory entries (R69). -/
def handleCount : Nat := 128
/-- Pages of the image store (R67). -/
abbrev pageCount : Nat := 2048
/-- Bytes of a page (R67). -/
def pageBytes : Nat := 128
/-- Palettes of the palette unit (R86). -/
def paletteCount : Nat := 8
/-- Entries of a palette (R86). -/
def entryCount : Nat := 256
/-- Writes the pending palette write list holds (R89). -/
def pendingWrites : Nat := 256
/-- Candidates of one line (R56). -/
def candidateLimit : Nat := 12
/-- Source samples one line's candidates may cost together (R56). -/
def fetchBudget : Nat := 2048
/-- Links an anchor chain may have (R6). -/
def maxLinks : Nat := 3
/-- Slots of the report queue (R150). -/
def reportSlots : Nat := 8
/-- Places of the relay queue (R155). -/
def relayPlaces : Nat := 4
/-- Bytes of the longest packet the relay queue receives (R155). -/
def relayBytes : Nat := 64
/-- Bytes of the longest forward command packet (R123). -/
def packetBytes : Nat := 256
/-- Where lines begun and pixels in line stop counting (R98). -/
def countStop : Nat := 4097
/-- The part code of the K16, 4B16h ("The identity reply"). -/
def partCode : Nat := 0x4B16
/-- The revision the manual describes. -/
def revision : Nat := 1
/-- The address straps of `State.reset`. DESIGN CHOICE (log entry 10): the board decides them; unsafe. -/
def resetStraps : BitVec 4 := 0

end Sys2Proof.Config
end

