-- ==== Sys2Proof/Syntax.lean ====
section
/-! DEFINITION. The commands the block takes: one constructor per row of spec/opcode_table.json, with the row's operands. -/

namespace Sys2Proof

/-- How the filter handed a command on (R134): addressed to this unit alone, or to all units (destination 15). -/
inductive Addressing where
  | unicast
  | broadcast
  deriving DecidableEq, Repr

/-- The commands. A host command carries how it was addressed, its sequence number and its payload bytes (R134), so that
every check of its rule, LENGTH among them, is made by its meaning. The four rows of the command code COMMIT are told apart
by the payload's mode byte: `commitNext`, `commitAt` and `commitNow` carry the payload after that byte, `commitOtherMode`
the whole payload (log entry 3). -/
inductive Instr where
  -- raster symbols (R116)
  | frameStart
  | lineStart
  | pixel (c0 c1 c2 : Nat)
  | lineEnd
  | frameEnd
  -- packet symbols and fill (R116)
  | packetStart
  | packetByte (b : Byte)
  | packetEnd
  | idle
  -- the forward link and reset (R117, R118)
  | forwardLinkDown
  | forwardLinkUp
  | drainEnd
  | resetAssert
  | resetRelease (straps : BitVec 4)
  | powerUp (straps : BitVec 4)
  -- session commands (R145 to R147)
  | hello (how : Addressing) (seq : Byte) (payload : List Byte)
  | status (how : Addressing) (seq : Byte) (payload : List Byte)
  | setEvents (how : Addressing) (seq : Byte) (payload : List Byte)
  -- object commands (R9 to R16)
  | defineObject (how : Addressing) (seq : Byte) (payload : List Byte)
  | moveObject (how : Addressing) (seq : Byte) (payload : List Byte)
  | setObjectAttr (how : Addressing) (seq : Byte) (payload : List Byte)
  | deleteObject (how : Addressing) (seq : Byte) (payload : List Byte)
  | readObject (how : Addressing) (seq : Byte) (payload : List Byte)
  -- commands of the generation controller (R25 to R43)
  | commitNext (how : Addressing) (seq : Byte) (rest : List Byte)
  | commitAt (how : Addressing) (seq : Byte) (rest : List Byte)
  | commitNow (how : Addressing) (seq : Byte) (rest : List Byte)
  | cancelCommit (how : Addressing) (seq : Byte) (payload : List Byte)
  | setMode (how : Addressing) (seq : Byte) (payload : List Byte)
  | discard (how : Addressing) (seq : Byte) (payload : List Byte)
  | clearAll (how : Addressing) (seq : Byte) (payload : List Byte)
  -- image commands (R74 to R84)
  | createImage (how : Addressing) (seq : Byte) (payload : List Byte)
  | loadImage (how : Addressing) (seq : Byte) (payload : List Byte)
  | restartImage (how : Addressing) (seq : Byte) (payload : List Byte)
  | releaseImage (how : Addressing) (seq : Byte) (payload : List Byte)
  | imageInfo (how : Addressing) (seq : Byte) (payload : List Byte)
  -- palette commands (R90, R96)
  | writePalette (how : Addressing) (seq : Byte) (payload : List Byte)
  | readPalette (how : Addressing) (seq : Byte) (payload : List Byte)
  -- the return lane (R155 to R160)
  | upstreamRoomAsserted
  | upstreamRoomWithdrawn
  | transmissionStart
  | transmissionEnd
  | relayPacketStart
  | relayPacketByte (b : Byte)
  | relayPacketEnd
  | relayIdle
  | returnOutputLinkDown
  | returnOutputLinkUp
  | returnInputLinkDown
  | returnInputLinkUp
  -- the remaining taken commands (R141, R25)
  | unknownCommandCode (how : Addressing) (seq code : Byte) (payload : List Byte)
  | commitOtherMode (how : Addressing) (seq : Byte) (payload : List Byte)
  deriving DecidableEq, Repr

end Sys2Proof
end

