-- ==== Sys2Proof/Decode.lean ====
section
/-! DEFINITION. The bytes of packets: multi-byte fields (R162), the CRC (R166), the command codes and payload lengths
(R164), reading a forward packet's header (R163) and the command it spells, and writing the packet of a command.
`decodeTableWord` answers none for every word: the rows of spec/opcode_table.json give no bits (log entry 16). -/

namespace Sys2Proof

/-! ### Fields of a byte string -/

/-- The value of byte `i`; a byte past the end reads 0 (every reader below is used on a payload whose length fits). -/
def byteAt (p : List Byte) (i : Nat) : Nat := (p.getD i 0).toNat

/-- The unsigned 16-bit field at bytes `i` and `i + 1`, most significant byte first (R162). -/
def u16At (p : List Byte) (i : Nat) : Nat := byteAt p i * 256 + byteAt p (i + 1)

/-- The signed 16-bit field at bytes `i` and `i + 1` (R162). -/
def s16At (p : List Byte) (i : Nat) : Int := (BitVec.ofNat 16 (u16At p i)).toInt

/-- The byte that carries `n`. -/
def u8 (n : Nat) : Byte := BitVec.ofNat 8 n

/-- The two bytes that carry `n`, most significant first (R162). -/
def be16 (n : Nat) : List Byte := [u8 (n / 256), u8 n]

/-- The four bytes that carry `n`, most significant first (R162). -/
def be32 (n : Nat) : List Byte := be16 (n / 65536) ++ be16 n

/-- The two bytes that carry the signed value `i` in two's complement (R162). -/
def beSigned16 (i : Int) : List Byte := be16 (BitVec.ofInt 16 i).toNat

/-- The byte that carries a choice of two (R162). -/
def boolByte (b : Bool) : Byte := if b then 1 else 0

/-! ### The CRC -/

/-- `n` shifts of the running value, each with its exclusive-or of 1021h when the outgoing bit was 1 (R166). -/
def crcShifts : Nat → Word16 → Word16
  | 0, c => c
  | n + 1, c => crcShifts n (if c.msb then (c <<< 1) ^^^ 0x1021 else c <<< 1)

/-- One byte taken into the running value (R166). -/
def crcByte (c : Word16) (b : Byte) : Word16 := crcShifts 8 (c ^^^ (b.setWidth 16 <<< 8))

/-- The CRC-16 of a byte string, in the order the bytes travel (R166). -/
def crc16 (bytes : List Byte) : Word16 := bytes.foldl crcByte 0xFFFF

/-- The CRC as it travels, most significant byte first. -/
def crcBytes (bytes : List Byte) : List Byte := be16 (crc16 bytes).toNat

/-! ### Command codes and payload lengths -/

/-- Kind byte of a forward command packet (R163). -/
def kindCommand : Byte := 0x43

/-- The command codes of 10_packet_and_record_layouts.md. -/
def codeHello : Byte := 0x01
def codeStatus : Byte := 0x02
def codeSetEvents : Byte := 0x03
def codeDefineObject : Byte := 0x10
def codeMoveObject : Byte := 0x11
def codeSetObjectAttr : Byte := 0x12
def codeDeleteObject : Byte := 0x13
def codeReadObject : Byte := 0x14
def codeCommit : Byte := 0x20
def codeCancelCommit : Byte := 0x21
def codeSetMode : Byte := 0x22
def codeDiscard : Byte := 0x23
def codeClearAll : Byte := 0x24
def codeCreateImage : Byte := 0x30
def codeLoadImage : Byte := 0x31
def codeRestartImage : Byte := 0x32
def codeReleaseImage : Byte := 0x33
def codeImageInfo : Byte := 0x34
def codeWritePalette : Byte := 0x40
def codeReadPalette : Byte := 0x41

/-- The codes the command table lists (R164). -/
def listedCodes : List Byte :=
  [codeHello, codeStatus, codeSetEvents, codeDefineObject, codeMoveObject, codeSetObjectAttr, codeDeleteObject,
   codeReadObject, codeCommit, codeCancelCommit, codeSetMode, codeDiscard, codeClearAll, codeCreateImage, codeLoadImage,
   codeRestartImage, codeReleaseImage, codeImageInfo, codeWritePalette, codeReadPalette]

/-- Bytes an item of SET_OBJECT_ATTR carries, by flag bit 0 to 11 (the item table of "SET_OBJECT_ATTR"). -/
def attrItemLengths : List Nat := [1, 1, 1, 1, 2, 2, 1, 1, 8, 0, 1, 0]

/-- Flag `i` of a SET_OBJECT_ATTR payload; the flag word stands in bytes 1 and 2, bit 0 least significant. -/
def attrFlag (p : List Byte) (i : Nat) : Bool := (u16At p 1).testBit i

/-- Bytes carried by the set flags among bits 0 to `n - 1` (R164). -/
def attrItemsBelow (p : List Byte) (n : Nat) : Nat :=
  ((List.range n).map fun i => if attrFlag p i then attrItemLengths.getD i 0 else 0).sum

/-- The payload length fits the command of this code (R164). A code the table does not list fits none. -/
def lengthFits (code : Byte) (p : List Byte) : Bool :=
  let n := p.length
  if code = codeHello || code = codeStatus || code = codeCancelCommit || code = codeDiscard || code = codeClearAll then n == 0
  else if code = codeSetEvents || code = codeDeleteObject || code = codeRestartImage || code = codeReleaseImage ||
    code = codeImageInfo then n == 1
  else if code = codeReadObject then n == 2
  else if code = codeCommit || code = codeReadPalette then n == 3
  else if code = codeMoveObject then n == 5
  else if code = codeCreateImage then n == 6
  else if code = codeSetMode then n == 7
  else if code = codeDefineObject then n == 26
  else if code = codeSetObjectAttr then decide (3 ≤ n) && n == 3 + attrItemsBelow p 12
  else if code = codeLoadImage then decide (4 ≤ n) && decide (n ≤ 243)
  else if code = codeWritePalette then decide (9 ≤ n) && decide (n ≤ 226) && (n - 2) % 7 == 0
  else false

/-! ### Forward packets -/

/-- What the checks at a held packet's PACKET_END find (R124, R125). -/
inductive PacketCheck where
  /-- The length check fails: fewer than 8 bytes, or not 6 + L + 2 of them. -/
  | badLength
  /-- The length is right and the CRC is not. -/
  | badCrc
  /-- A good packet: its destination field (0 to 15), sequence number, command code and payload. -/
  | good (dest : BitVec 4) (seq code : Byte) (payload : List Byte)
  deriving DecidableEq, Repr

/-- The checks of R124 and R125 on the bytes of a packet, with the header of R163. -/
def checkPacket (bytes : List Byte) : PacketCheck :=
  let n := bytes.length
  if n < 8 || n != 6 + u16At bytes 4 + 2 then .badLength
  else if crcBytes (bytes.take (n - 2)) != bytes.drop (n - 2) then .badCrc
  else .good ((bytes.getD 1 0).setWidth 4) (bytes.getD 2 0) (bytes.getD 3 0) ((bytes.drop 6).take (u16At bytes 4))

/-- The command that a code and a payload spell (R141): the row of the table, COMMIT by its mode byte, and
UNKNOWN_COMMAND_CODE for a code the table does not list. -/
def commandOf (how : Addressing) (seq code : Byte) (p : List Byte) : Instr :=
  if code = codeHello then .hello how seq p
  else if code = codeStatus then .status how seq p
  else if code = codeSetEvents then .setEvents how seq p
  else if code = codeDefineObject then .defineObject how seq p
  else if code = codeMoveObject then .moveObject how seq p
  else if code = codeSetObjectAttr then .setObjectAttr how seq p
  else if code = codeDeleteObject then .deleteObject how seq p
  else if code = codeReadObject then .readObject how seq p
  else if code = codeCommit then
    match p with
    | [] => .commitOtherMode how seq []
    | m :: rest =>
      if m = 0 then .commitNext how seq rest
      else if m = 1 then .commitAt how seq rest
      else if m = 2 then .commitNow how seq rest
      else .commitOtherMode how seq (m :: rest)
  else if code = codeCancelCommit then .cancelCommit how seq p
  else if code = codeSetMode then .setMode how seq p
  else if code = codeDiscard then .discard how seq p
  else if code = codeClearAll then .clearAll how seq p
  else if code = codeCreateImage then .createImage how seq p
  else if code = codeLoadImage then .loadImage how seq p
  else if code = codeRestartImage then .restartImage how seq p
  else if code = codeReleaseImage then .releaseImage how seq p
  else if code = codeImageInfo then .imageInfo how seq p
  else if code = codeWritePalette then .writePalette how seq p
  else if code = codeReadPalette then .readPalette how seq p
  else .unknownCommandCode how seq code p

/-- What a host command's packet carries: its addressing, sequence number, command code and payload. None for the rows
that are no host command. -/
def carried (i : Instr) : Option (Addressing × Byte × Byte × List Byte) :=
  match i with
  | .hello h q p => some (h, q, codeHello, p)
  | .status h q p => some (h, q, codeStatus, p)
  | .setEvents h q p => some (h, q, codeSetEvents, p)
  | .defineObject h q p => some (h, q, codeDefineObject, p)
  | .moveObject h q p => some (h, q, codeMoveObject, p)
  | .setObjectAttr h q p => some (h, q, codeSetObjectAttr, p)
  | .deleteObject h q p => some (h, q, codeDeleteObject, p)
  | .readObject h q p => some (h, q, codeReadObject, p)
  | .commitNext h q r => some (h, q, codeCommit, 0 :: r)
  | .commitAt h q r => some (h, q, codeCommit, 1 :: r)
  | .commitNow h q r => some (h, q, codeCommit, 2 :: r)
  | .commitOtherMode h q p => some (h, q, codeCommit, p)
  | .cancelCommit h q p => some (h, q, codeCancelCommit, p)
  | .setMode h q p => some (h, q, codeSetMode, p)
  | .discard h q p => some (h, q, codeDiscard, p)
  | .clearAll h q p => some (h, q, codeClearAll, p)
  | .createImage h q p => some (h, q, codeCreateImage, p)
  | .loadImage h q p => some (h, q, codeLoadImage, p)
  | .restartImage h q p => some (h, q, codeRestartImage, p)
  | .releaseImage h q p => some (h, q, codeReleaseImage, p)
  | .imageInfo h q p => some (h, q, codeImageInfo, p)
  | .writePalette h q p => some (h, q, codeWritePalette, p)
  | .readPalette h q p => some (h, q, codeReadPalette, p)
  | .unknownCommandCode h q c p => some (h, q, c, p)
  | .frameStart | .lineStart | .pixel _ _ _ | .lineEnd | .frameEnd | .packetStart | .packetByte _ | .packetEnd | .idle
  | .forwardLinkDown | .forwardLinkUp | .drainEnd | .resetAssert | .resetRelease _ | .powerUp _
  | .upstreamRoomAsserted | .upstreamRoomWithdrawn | .transmissionStart | .transmissionEnd | .relayPacketStart
  | .relayPacketByte _ | .relayPacketEnd | .relayIdle | .returnOutputLinkDown | .returnOutputLinkUp
  | .returnInputLinkDown | .returnInputLinkUp => none

/-- The bytes of the forward packet of these header fields and payload ("The forward command packet"): kind, destination
byte, sequence number, code, payload length, payload and CRC. -/
def packetBytesOf (dest seq code : Byte) (p : List Byte) : List Byte :=
  let body := [kindCommand, dest, seq, code] ++ be16 p.length ++ p
  body ++ crcBytes body

/-- The forward packet of a host command for the unit at `addr`: its own address for a unicast, 15 for a broadcast. -/
def encodeCommand (addr : BitVec 4) (i : Instr) : Option (List Byte) :=
  (carried i).map fun c =>
    packetBytesOf (match c.1 with | .unicast => addr.setWidth 8 | .broadcast => 15) c.2.1 c.2.2.1 c.2.2.2

/-- The host command that the bytes of a packet spell to the unit at `addr`: none when a check fails or the destination is
another unit's. -/
def decodeCommand (addr : BitVec 4) (bytes : List Byte) : Option Instr :=
  match checkPacket bytes with
  | .badLength => none
  | .badCrc => none
  | .good dest seq code p =>
    if dest = 15 then some (commandOf .broadcast seq code p)
    else if dest = addr then some (commandOf .unicast seq code p)
    else none

/-- The command a word of the table's bits spells. The table gives its rows no bits, so no word spells one. -/
def decodeTableWord (_nbits _w : Nat) : Option Instr := none

end Sys2Proof
end

