-- ==== Sys2Proof/Machine/State.lean ====
section
/-! DEFINITION. The state of the block: one structure per block of 00_scope.md ("Block overview"), the pins and links, the
queue of waiting commands, and what the two outputs have sent. Plain data throughout. -/

namespace Sys2Proof.Machine

/-! ### Pixels, geometry and symbols -/

/-- A pixel's or palette entry's three components, each 0 to 1023. -/
structure Colour where
  c0 : Nat
  c1 : Nat
  c2 : Nat
  deriving DecidableEq, Repr

/-- A raster geometry: pixels per line, lines per frame (R98). -/
structure Geometry where
  w : Nat
  h : Nat
  deriving DecidableEq, Repr

/-- The symbols of the forward channel (R116). -/
inductive FwdSymbol where
  | frameStart
  | lineStart
  | pixel (c : Colour)
  | lineEnd
  | frameEnd
  | packetStart
  | packetByte (b : Byte)
  | packetEnd
  | idle
  deriving DecidableEq, Repr

/-- What FWD_OUT shows: a symbol in a slot, or a change of the link state it presents (R117, R118). -/
inductive FwdOutput where
  | symbol (x : FwdSymbol)
  | linkDown
  | linkUp
  deriving DecidableEq, Repr

/-! ### Raster tracker (R98) -/

inductive RasterState where
  | noSignal
  | acquiring
  | locked
  | disrupted
  deriving DecidableEq, Repr

/-- The fault kinds of R107. -/
inductive FaultKind where
  | longLine
  | shortLine
  | extraLine
  | shortFrame
  | frameRestart
  | packetInLine
  | structural
  deriving DecidableEq, Repr

/-- The fault record (R109). -/
structure FaultRecord where
  kind : FaultKind
  frame : Word16
  line : Nat
  deriving DecidableEq, Repr

structure Tracker where
  rasterState : RasterState
  candidate : Option Geometry
  matchCount : Nat
  locked : Option Geometry
  inFrame : Bool
  inLine : Bool
  linesBegun : Nat
  pixelsInLine : Nat
  lengthMark : Option Nat
  irregular : Bool
  frameCounter : Word16
  fault : Option FaultRecord
  deriving DecidableEq, Repr

/-! ### Packet filter (R120) -/

inductive Reception where
  | none
  | holding
  | overlong
  | unexamined
  deriving DecidableEq, Repr

inductive KindKnown where
  | no
  | command
  | other
  deriving DecidableEq, Repr

/-- A symbol of the hold queue; a PIXEL carries its outgoing value (R129). -/
structure QueuedSymbol where
  symbol : FwdSymbol
  held : Bool
  deriving DecidableEq, Repr

structure Filter where
  reception : Reception
  byteCount : Nat
  kindKnown : KindKnown
  holdQueue : List QueuedSymbol
  crcTally : Nat
  truncTally : Nat
  deriving DecidableEq, Repr

/-! ### Command session (R133) -/

/-- The status codes (R144). -/
inductive Status where
  | ok
  | sequence
  | unknown
  | length
  | range
  | noObject
  | noImage
  | notReady
  | inUse
  | inDisplay
  | noSpace
  | offset
  | cycle
  | depth
  | full
  | armed
  | locked
  | notArmed
  deriving DecidableEq, Repr

inductive SessionState where
  | unsynced
  | synced
  deriving DecidableEq, Repr

/-- What the cached acknowledgement holds (R140). -/
structure Ack where
  seq : Byte
  code : Byte
  status : Status
  data : List Byte
  deriving DecidableEq, Repr

/-- The set of event kinds the unit reports (R147). -/
structure EventMask where
  raster : Bool
  commit : Bool
  truncation : Bool
  link : Bool
  deriving DecidableEq, Repr

structure Session where
  sessionState : SessionState
  expected : Option Byte
  last : Option Byte
  cached : Option Ack
  discardTally : Nat
  firstDiscarded : Option Byte
  refusalTally : Nat
  mask : EventMask
  deriving DecidableEq, Repr

/-! ### Object table (R1) -/

/-- A clip rectangle, `x0 ≤ x < x1` and `y0 ≤ y < y1` (R4). -/
structure Clip where
  x0 : Nat
  y0 : Nat
  x1 : Nat
  y1 : Nat
  deriving DecidableEq, Repr

/-- The fields of a DEFINED record (R1). -/
structure ObjectFields where
  image : Nat
  x : Int
  y : Int
  z : Nat
  palette : Nat
  row : Nat
  scaleX : Nat
  scaleY : Nat
  flipH : Bool
  flipV : Bool
  opacity : Nat
  visible : Bool
  anchor : Option Nat
  clip : Option Clip
  deriving DecidableEq, Repr

/-- A DEFINED active record: its fields and its effective position (R18). -/
structure ActiveObject where
  fields : ObjectFields
  ex : Int
  ey : Int
  deriving DecidableEq, Repr

/-- The two generations of 64 records; `none` is FREE (R1, R2). -/
structure ObjectTable where
  staged : Vector (Option ObjectFields) 64
  active : Vector (Option ActiveObject) 64
  deriving DecidableEq, Repr

/-! ### Generation controller (R20 to R24) -/

inductive OutputMode where
  | pass
  | compose
  | backdrop
  deriving DecidableEq, Repr

inductive CommitState where
  | idle
  | armedNext
  | armedAt (target : Word16)
  deriving DecidableEq, Repr

structure Generations where
  stagedMode : OutputMode
  activeMode : OutputMode
  stagedFill : Colour
  activeFill : Colour
  generation : Word16
  commit : CommitState
  stagedDirty : Bool
  deriving DecidableEq, Repr

/-! ### Image store (R67 to R69) -/

/-- A page number, 0 to 2047: no other page can be named. -/
abbrev PageNo := Fin Config.pageCount

/-- The bytes of the image store as (address, byte) pairs, address = page × 128 + position in the page. Canonical form
(`Memory.wf` of Machine/Ops.lean): addresses strictly rising and below 262,144, and no byte 0 listed; an unlisted address
reads 0, the value hard reset writes (R67). -/
abbrev Memory := List Host.Cell

/-- The states of an entry that is not FREE (R71). -/
inductive ImagePhase where
  | loading
  | ready
  | retiring
  deriving DecidableEq, Repr

/-- The fields of an entry that is not FREE (R69). -/
structure Image where
  phase : ImagePhase
  width : Nat
  height : Nat
  depth : Nat
  rowLength : Nat
  size : Nat
  pageMap : List PageNo
  cursor : Nat
  deriving DecidableEq, Repr

/-- An entry of the image directory: `image` is none when FREE. The two counts are kept for every entry (R73). -/
structure ImageEntry where
  image : Option Image
  stagedRefs : Nat
  activeRefs : Nat
  deriving DecidableEq, Repr

structure ImageStore where
  memory : Memory
  freePages : List PageNo
  directory : Vector ImageEntry 128
  deriving DecidableEq, Repr

/-! ### Palette unit (R86, R89) -/

structure PaletteEntry where
  colour : Colour
  alpha : Nat
  deriving DecidableEq, Repr

/-- A pending palette write (R89). -/
structure PaletteWrite where
  palette : Nat
  index : Nat
  entry : PaletteEntry
  deriving DecidableEq, Repr

structure PaletteUnit where
  active : Vector (Vector PaletteEntry 256) 8
  writes : List PaletteWrite
  deriving DecidableEq, Repr

/-! ### Line compositor (R45) -/

/-- A candidate of the line in progress (R57). -/
structure Candidate where
  objectId : Nat
  xa : Nat
  xb : Nat
  cost : Nat
  sourceRow : Nat
  deriving DecidableEq, Repr

/-- The working truncation summary (R64). -/
structure WorkingSummary where
  linesTruncated : Nat
  firstLine : Option Nat
  recordsOmitted : Nat
  deriving DecidableEq, Repr

/-- The last-frame summary (R65); `cutShort` false is the ending "complete". -/
structure FrameSummary where
  linesTruncated : Nat
  firstLine : Option Nat
  recordsOmitted : Nat
  frame : Word16
  cutShort : Bool
  deriving DecidableEq, Repr

structure Compositor where
  compositing : Bool
  candidates : List Candidate
  working : WorkingSummary
  lastFrame : FrameSummary
  deriving DecidableEq, Repr

/-! ### Report unit (R149) -/

inductive EventKind where
  | raster
  | commit
  | truncation
  | link
  deriving DecidableEq, Repr

/-- Data of a RASTER event (R113). -/
structure RasterEvent where
  rasterState : RasterState
  geometry : Option Geometry
  lastFault : Option FaultKind
  counter : Word16
  deriving DecidableEq, Repr

/-- Data of a COMMIT event (R33). -/
structure CommitEvent where
  generation : Word16
  counter : Word16
  deriving DecidableEq, Repr

inductive LinkCause where
  | crc
  | truncated
  deriving DecidableEq, Repr

/-- Data of a LINK event (R131). -/
structure LinkEvent where
  cause : LinkCause
  crcTally : Nat
  truncTally : Nat
  counter : Word16
  deriving DecidableEq, Repr

/-- An event as it is raised to the report unit (R152). -/
inductive Event where
  | raster (e : RasterEvent)
  | commit (e : CommitEvent)
  | truncation (e : FrameSummary)
  | link (e : LinkEvent)
  deriving DecidableEq, Repr

/-- The pending event set: at most one entry of each kind (R152). -/
structure PendingEvents where
  raster : Option RasterEvent
  commit : Option CommitEvent
  truncation : Option FrameSummary
  link : Option LinkEvent
  deriving DecidableEq, Repr

/-- A slot of the report queue that is not free (R150). -/
inductive ReportSlot where
  | reserved
  | filled (bytes : List Byte)
  deriving DecidableEq, Repr

/-- A place of the relay queue: the bytes received, and whether the packet is received whole (R155). -/
structure RelayPlace where
  bytes : List Byte
  whole : Bool
  deriving DecidableEq, Repr

inductive QueueName where
  | report
  | relay
  deriving DecidableEq, Repr

inductive Transmitter where
  | free
  | sending (q : QueueName)
  | abandoned (q : QueueName)
  deriving DecidableEq, Repr

structure ReportUnit where
  queue : List ReportSlot
  events : PendingEvents
  relay : List RelayPlace
  transmitter : Transmitter
  lastServed : QueueName
  inputLaneUp : Bool
  outputLaneUp : Bool
  deriving DecidableEq, Repr

/-! ### The whole -/

/-- The state. `pending`, `fwdSent` and `retSent` are the model's own: the queue of waiting commands (first in, first out),
what FWD_OUT has carried slot by slot, and the packets RET_OUT has sent whole (log entries 1 and 15). -/
structure State where
  resetAsserted : Bool
  unitAddress : BitVec 4
  fwdInUp : Bool
  fwdOutUp : Bool
  drains : List Nat
  upstreamRoom : Bool
  tracker : Tracker
  filter : Filter
  session : Session
  objects : ObjectTable
  generations : Generations
  images : ImageStore
  palettes : PaletteUnit
  compositor : Compositor
  reports : ReportUnit
  fwdSent : List FwdOutput
  retSent : List (List Byte)
  pending : List Instr
  deriving DecidableEq, Repr

/-- The block never stops with a fault: raster faults, damaged packets and refused commands are effects on its state
(R108, R131, R144). No constructor (log entry 20). -/
inductive Fault : Type
  deriving DecidableEq, Repr

/-- Reasons to refuse a command. -/
inductive Refusal where
  /-- Raised by `exec` alone, for a row of the table whose meaning is not written. Safe: nothing is claimed of it. No arm
  raises it in this model. -/
  | notModelled (mnemonic : String)
  deriving DecidableEq, Repr

/-! ### Hard reset values -/

/-- R99. -/
def Tracker.reset : Tracker where
  rasterState := .noSignal
  candidate := none
  matchCount := 0
  locked := none
  inFrame := false
  inLine := false
  linesBegun := 0
  pixelsInLine := 0
  lengthMark := none
  irregular := false
  frameCounter := 0
  fault := none

/-- R120. -/
def Filter.reset : Filter where
  reception := .none
  byteCount := 0
  kindKnown := .no
  holdQueue := []
  crcTally := 0
  truncTally := 0

/-- The empty event mask (R133). -/
def EventMask.empty : EventMask := ⟨false, false, false, false⟩

/-- R133. -/
def Session.reset : Session where
  sessionState := .unsynced
  expected := none
  last := none
  cached := none
  discardTally := 0
  firstDiscarded := none
  refusalTally := 0
  mask := EventMask.empty

/-- Black: (0, 0, 0). -/
def Colour.zero : Colour := ⟨0, 0, 0⟩

/-- R2, R23. -/
def ObjectTable.reset : ObjectTable where
  staged := Vector.replicate 64 none
  active := Vector.replicate 64 none

/-- R23. -/
def Generations.reset : Generations where
  stagedMode := .pass
  activeMode := .pass
  stagedFill := Colour.zero
  activeFill := Colour.zero
  generation := 0
  commit := .idle
  stagedDirty := false

/-- A FREE directory entry: both counts 0 (R69). -/
def ImageEntry.free : ImageEntry := ⟨none, 0, 0⟩

/-- R85: every byte 0, the free page list 0 to 2047 ascending, every entry FREE. -/
def ImageStore.reset : ImageStore where
  memory := []
  freePages := List.finRange Config.pageCount
  directory := Vector.replicate 128 ImageEntry.free

/-- R87. -/
def PaletteEntry.zero : PaletteEntry := ⟨Colour.zero, 0⟩

/-- R87. -/
def PaletteUnit.reset : PaletteUnit where
  active := Vector.replicate 8 (Vector.replicate 256 PaletteEntry.zero)
  writes := []

/-- R64: the working summary when it is zeroed. -/
def WorkingSummary.zero : WorkingSummary := ⟨0, none, 0⟩

/-- R45. -/
def Compositor.reset : Compositor where
  compositing := false
  candidates := []
  working := WorkingSummary.zero
  lastFrame := ⟨0, none, 0, 0, false⟩

/-- R149. -/
def PendingEvents.empty : PendingEvents := ⟨none, none, none, none⟩

/-- R149. -/
def ReportUnit.reset : ReportUnit where
  queue := []
  events := PendingEvents.empty
  relay := []
  transmitter := .free
  lastServed := .report
  inputLaneUp := false
  outputLaneUp := false

/-- The block right after reset: RESET_N released, every block at its hard reset values, every link and lane DOWN until its
channel reports alignment (R118, R149). The address and ROOM from upstream are the model's choices (log entries 10, 11). -/
def State.reset : State where
  resetAsserted := false
  unitAddress := Config.resetStraps
  fwdInUp := false
  fwdOutUp := false
  drains := []
  upstreamRoom := false
  tracker := Tracker.reset
  filter := Filter.reset
  session := Session.reset
  objects := ObjectTable.reset
  generations := Generations.reset
  images := ImageStore.reset
  palettes := PaletteUnit.reset
  compositor := Compositor.reset
  reports := ReportUnit.reset
  fwdSent := []
  retSent := []
  pending := []

end Sys2Proof.Machine
end

