-- ==== Sys2Proof/Machine/Flags.lean ====
section
/-! DEFINITION. The enumerated values and flag bits the host reads (10_packet_and_record_layouts.md, "Enumerated values"), the
event mask, and the counts that stop at a bound. -/

namespace Sys2Proof.Machine

/-- A count that rises by 1 and stops at `bound` (00_scope.md, "Numbers"). -/
def satSucc (bound n : Nat) : Nat := if n < bound then n + 1 else n

/-- A count that rises by `k` and stops at `bound`. -/
def satAdd (bound n k : Nat) : Nat := min bound (n + k)

/-- Status codes (R144). -/
def Status.code : Status → Byte
  | .ok => 0x00
  | .sequence => 0x01
  | .unknown => 0x02
  | .length => 0x03
  | .range => 0x04
  | .noObject => 0x05
  | .noImage => 0x06
  | .notReady => 0x07
  | .inUse => 0x08
  | .inDisplay => 0x09
  | .noSpace => 0x0A
  | .offset => 0x0B
  | .cycle => 0x0C
  | .depth => 0x0D
  | .full => 0x0E
  | .armed => 0x0F
  | .locked => 0x10
  | .notArmed => 0x11

def RasterState.code : RasterState → Byte
  | .noSignal => 0
  | .acquiring => 1
  | .locked => 2
  | .disrupted => 3

def FaultKind.code : FaultKind → Byte
  | .longLine => 1
  | .shortLine => 2
  | .extraLine => 3
  | .shortFrame => 4
  | .frameRestart => 5
  | .packetInLine => 6
  | .structural => 7

/-- The last fault kind as reported: 0 for none. -/
def faultCode : Option FaultKind → Byte
  | none => 0
  | some k => k.code

def CommitState.code : CommitState → Byte
  | .idle => 0
  | .armedNext => 1
  | .armedAt _ => 2

/-- The target as reported: 0 unless ARMED_AT. -/
def CommitState.targetValue : CommitState → Nat
  | .idle => 0
  | .armedNext => 0
  | .armedAt t => t.toNat

/-- ARMED_NEXT or ARMED_AT (R24). -/
def CommitState.isArmed : CommitState → Bool
  | .idle => false
  | .armedNext => true
  | .armedAt _ => true

def OutputMode.code : OutputMode → Byte
  | .pass => 0
  | .compose => 1
  | .backdrop => 2

/-- The output mode a SET_MODE payload's mode byte names; any other value is out of range (R39). -/
def outputModeOf (n : Nat) : Option OutputMode :=
  if n = 0 then some .pass else if n = 1 then some .compose else if n = 2 then some .backdrop else none

def ImagePhase.code : ImagePhase → Byte
  | .loading => 1
  | .ready => 2
  | .retiring => 3

/-- The state of a directory entry as reported: 0 for FREE (R71). -/
def ImageEntry.stateCode (e : ImageEntry) : Byte :=
  match e.image with
  | none => 0
  | some im => im.phase.code

def SessionState.code : SessionState → Byte
  | .unsynced => 0
  | .synced => 1

def LinkCause.code : LinkCause → Byte
  | .crc => 0
  | .truncated => 1

def EventKind.code : EventKind → Byte
  | .raster => 0
  | .commit => 1
  | .truncation => 2
  | .link => 3

/-- A byte of flag bits, bit 0 first. -/
def flagByte (bits : List Bool) : Byte := bits.foldr (fun b acc => (acc <<< 1) ||| (if b then 1 else 0)) 0

/-- The kind is in the mask. -/
def EventMask.has (m : EventMask) : EventKind → Bool
  | .raster => m.raster
  | .commit => m.commit
  | .truncation => m.truncation
  | .link => m.link

/-- The mask in its bits: 0 RASTER, 1 COMMIT, 2 TRUNCATION, 3 LINK. -/
def EventMask.byte (m : EventMask) : Byte := flagByte [m.raster, m.commit, m.truncation, m.link]

/-- The mask a SET_EVENTS byte names; a bit that names no kind is out of range (R147). -/
def EventMask.ofByte (n : Nat) : Option EventMask :=
  if n < 16 then some ⟨n.testBit 0, n.testBit 1, n.testBit 2, n.testBit 3⟩ else none

def Event.kind : Event → EventKind
  | .raster _ => .raster
  | .commit _ => .commit
  | .truncation _ => .truncation
  | .link _ => .link

/-- The pending event kinds, in the bits of the mask. -/
def PendingEvents.byte (p : PendingEvents) : Byte :=
  flagByte [p.raster.isSome, p.commit.isSome, p.truncation.isSome, p.link.isSome]

end Sys2Proof.Machine
end

