-- ==== Sys2Proof/Machine/Operands.lean ====
section
/-! DEFINITION. The operand forms of the commands: the fields of each payload (10_packet_and_record_layouts.md, "Payloads")
and the RANGE check each field has. A field is judged by the number it decodes (R162). -/

namespace Sys2Proof.Machine

/-- A choice of two holds 0 or 1 (R162). -/
def isChoice (n : Nat) : Bool := decide (n ≤ 1)

/-- x or y of a record: −1024 to 4095 (R1). -/
def positionInRange (i : Int) : Bool := decide (-1024 ≤ i) && decide (i ≤ 4095)

/-- A scale: 1 to 4 (R1). -/
def scaleInRange (n : Nat) : Bool := decide (1 ≤ n) && decide (n ≤ 4)

/-- A clip rectangle: coordinates 0 to 4096, in order (R1). -/
def clipInRange (c : Clip) : Bool :=
  decide (c.x0 < c.x1) && decide (c.y0 < c.y1) && decide (c.x1 ≤ 4096) && decide (c.y1 ≤ 4096)

/-- The clip whose coordinates stand from byte `i` on. -/
def clipAt (p : List Byte) (i : Nat) : Clip := ⟨u16At p i, u16At p (i + 2), u16At p (i + 4), u16At p (i + 6)⟩

/-- A colour whose components stand from byte `i` on, 2 bytes each. -/
def colourAt (p : List Byte) (i : Nat) : Colour := ⟨u16At p i, u16At p (i + 2), u16At p (i + 4)⟩

/-- Every component 0 to 1023. -/
def colourInRange (c : Colour) : Bool := decide (c.c0 ≤ 1023) && decide (c.c1 ≤ 1023) && decide (c.c2 ≤ 1023)

/-! ### DEFINE_OBJECT and MOVE_OBJECT -/

/-- Stage 3 of DEFINE_OBJECT (R9). -/
def defineInRange (p : List Byte) : Bool :=
  decide (byteAt p 0 < 64) && decide (byteAt p 1 < 128) && positionInRange (s16At p 2) && positionInRange (s16At p 4) &&
  decide (byteAt p 7 < 8) && decide (byteAt p 8 < 16) && scaleInRange (byteAt p 9) && scaleInRange (byteAt p 10) &&
  isChoice (byteAt p 11) && isChoice (byteAt p 12) && decide (byteAt p 13 < 16) && isChoice (byteAt p 14) &&
  isChoice (byteAt p 15) && (byteAt p 15 != 1 || decide (byteAt p 16 < 64)) &&
  isChoice (byteAt p 17) && (byteAt p 17 != 1 || clipInRange (clipAt p 18))

/-- The fields a DEFINE_OBJECT carries; the bytes of an absent part are not stored (R9). -/
def defineFields (p : List Byte) : ObjectFields where
  image := byteAt p 1
  x := s16At p 2
  y := s16At p 4
  z := byteAt p 6
  palette := byteAt p 7
  row := byteAt p 8
  scaleX := byteAt p 9
  scaleY := byteAt p 10
  flipH := byteAt p 11 == 1
  flipV := byteAt p 12 == 1
  opacity := byteAt p 13
  visible := byteAt p 14 == 1
  anchor := if byteAt p 15 = 1 then some (byteAt p 16) else none
  clip := if byteAt p 17 = 1 then some (clipAt p 18) else none

/-- Stage 3 of MOVE_OBJECT (R10). -/
def moveInRange (p : List Byte) : Bool :=
  decide (byteAt p 0 < 64) && positionInRange (s16At p 1) && positionInRange (s16At p 3)

/-! ### SET_OBJECT_ATTR -/

/-- Where the value of flag `i`'s item stands: items follow from byte 3 in ascending order of flag bit. -/
def attrOffset (p : List Byte) (i : Nat) : Nat := 3 + attrItemsBelow p i

/-- Flag `i` is clear, or its item's value passes `ok`, which is given where the value stands. -/
def attrItemInRange (p : List Byte) (i : Nat) (ok : Nat → Bool) : Bool := !attrFlag p i || ok (attrOffset p i)

/-- Stage 3 of SET_OBJECT_ATTR: the flag word, the object id and each present item (R12). -/
def attrInRange (p : List Byte) : Bool :=
  !(attrFlag p 8 && attrFlag p 9) && !(attrFlag p 10 && attrFlag p 11) &&
  !attrFlag p 12 && !attrFlag p 13 && !attrFlag p 14 && !attrFlag p 15 &&
  decide (byteAt p 0 < 64) &&
  attrItemInRange p 0 (fun o => decide (byteAt p o < 128)) &&
  attrItemInRange p 2 (fun o => decide (byteAt p o < 8)) &&
  attrItemInRange p 3 (fun o => decide (byteAt p o < 16)) &&
  attrItemInRange p 4 (fun o => scaleInRange (byteAt p o) && scaleInRange (byteAt p (o + 1))) &&
  attrItemInRange p 5 (fun o => isChoice (byteAt p o) && isChoice (byteAt p (o + 1))) &&
  attrItemInRange p 6 (fun o => decide (byteAt p o < 16)) &&
  attrItemInRange p 7 (fun o => isChoice (byteAt p o)) &&
  attrItemInRange p 8 (fun o => clipInRange (clipAt p o)) &&
  attrItemInRange p 10 (fun o => decide (byteAt p o < 64))

/-- The byte `k` of flag `i`'s item when the flag is set, else `old`. -/
def attrByte (p : List Byte) (i k old : Nat) : Nat := if attrFlag p i then byteAt p (attrOffset p i + k) else old

/-- The record as it stands after every present item is applied together (R11, R12). -/
def attrFields (p : List Byte) (o : ObjectFields) : ObjectFields where
  image := attrByte p 0 0 o.image
  x := o.x
  y := o.y
  z := attrByte p 1 0 o.z
  palette := attrByte p 2 0 o.palette
  row := attrByte p 3 0 o.row
  scaleX := attrByte p 4 0 o.scaleX
  scaleY := attrByte p 4 1 o.scaleY
  flipH := if attrFlag p 5 then byteAt p (attrOffset p 5) == 1 else o.flipH
  flipV := if attrFlag p 5 then byteAt p (attrOffset p 5 + 1) == 1 else o.flipV
  opacity := attrByte p 6 0 o.opacity
  visible := if attrFlag p 7 then byteAt p (attrOffset p 7) == 1 else o.visible
  anchor := if attrFlag p 10 then some (byteAt p (attrOffset p 10)) else if attrFlag p 11 then none else o.anchor
  clip := if attrFlag p 8 then some (clipAt p (attrOffset p 8)) else if attrFlag p 9 then none else o.clip

/-- The image handle of a present image item. -/
def attrImage (p : List Byte) : Option Nat := if attrFlag p 0 then some (byteAt p (attrOffset p 0)) else none

/-- The anchor of an anchor item that sets one. -/
def attrAnchor (p : List Byte) : Option Nat := if attrFlag p 10 then some (byteAt p (attrOffset p 10)) else none

/-! ### COMMIT -/

/-- The target frame count of a COMMIT payload (R25). -/
def commitTarget (p : List Byte) : Word16 := BitVec.ofNat 16 (u16At p 1)

/-! ### CREATE_IMAGE and LOAD_IMAGE -/

/-- Check 4 of CREATE_IMAGE (R74). -/
def imageShapeInRange (w h d : Nat) : Bool :=
  decide (1 ≤ w) && decide (w ≤ 256) && decide (1 ≤ h) && decide (h ≤ 256) && (d == 4 || d == 8)

/-- ceil(a / b). -/
def ceilDiv (a b : Nat) : Nat := (a + b - 1) / b

/-- Row length of an image (R70). -/
def rowLengthOf (w d : Nat) : Nat := ceilDiv (w * d) 8

/-- Pages an image of `size` bytes holds (R70). -/
def pagesFor (size : Nat) : Nat := ceilDiv size Config.pageBytes

/-! ### WRITE_PALETTE -/

/-- Number of entries of a WRITE_PALETTE payload (R164). -/
def paletteRun (p : List Byte) : Nat := (p.length - 2) / 7

/-- Entry `k` of a WRITE_PALETTE payload ("WRITE_PALETTE, READ_PALETTE and SET_EVENTS"). -/
def paletteEntryAt (p : List Byte) (k : Nat) : PaletteEntry := ⟨colourAt p (2 + 7 * k), byteAt p (8 + 7 * k)⟩

/-- Check 3 of WRITE_PALETTE (R90). -/
def paletteWriteInRange (p : List Byte) : Bool :=
  decide (byteAt p 0 < 8) && decide (byteAt p 1 + paletteRun p - 1 ≤ 255) &&
  (List.range (paletteRun p)).all fun k =>
    colourInRange (paletteEntryAt p k).colour && decide ((paletteEntryAt p k).alpha ≤ 15)

/-- The writes a WRITE_PALETTE carries, in index order (R91). -/
def paletteWrites (p : List Byte) : List PaletteWrite :=
  (List.range (paletteRun p)).map fun k => ⟨byteAt p 0, byteAt p 1 + k, paletteEntryAt p k⟩

end Sys2Proof.Machine
end

