-- ==== Sys2Proof/Machine/Ops.lean ====
section
/-! DEFINITION. The named operations the meanings share: the image store's bytes, the tables, building reports, raising
events, the hold queue and the slot of the downstream output. -/

namespace Sys2Proof.Machine

/-! ### Bytes of the image store (R67, R70) -/

/-- The byte at an address; an unlisted address reads 0, the value hard reset writes (R67). -/
def Memory.read : Memory → Nat → Byte
  | [], _ => 0
  | (a, b) :: m, k => if k = a then b else Memory.read m k

/-- The byte written at an address, keeping the canonical form: in order, and writing 0 removes the pair. -/
def Memory.write : Memory → Nat → Byte → Memory
  | [], k, v => if v = 0 then [] else [(k, v)]
  | (a, b) :: m, k, v =>
    if k < a then (if v = 0 then (a, b) :: m else (k, v) :: (a, b) :: m)
    else if k = a then (if v = 0 then m else (k, v) :: m)
    else (a, b) :: Memory.write m k v

/-- Bytes of the whole store: 2048 pages of 128 bytes (R67). -/
def storeBytes : Nat := Config.pageCount * Config.pageBytes

/-- The pairs are in order from `lo` on, inside the store, and none holds 0. -/
def Memory.wfFrom : Nat → Memory → Bool
  | _, [] => true
  | lo, (a, b) :: m => decide (lo ≤ a) && decide (a < storeBytes) && b != 0 && Memory.wfFrom (a + 1) m

/-- The canonical form. -/
def Memory.wf (m : Memory) : Bool := Memory.wfFrom 0 m

/-- Where byte `n` of an image with this page map lies: byte n mod 128 of page map entry floor(n / 128) (R70). None past the
map's end, which no byte below an image's size reaches. -/
def imageAddress (pageMap : List PageNo) (n : Nat) : Option Nat :=
  (pageMap[n / Config.pageBytes]?).map fun p => p.val * Config.pageBytes + n % Config.pageBytes

/-- Byte `n` of an image. -/
def imageByte (m : Memory) (pageMap : List PageNo) (n : Nat) : Byte :=
  match imageAddress pageMap n with
  | some a => Memory.read m a
  | none => 0

/-- The bytes written as image bytes number `n` onward, in the order carried (R77). -/
def writeImageBytes (m : Memory) (pageMap : List PageNo) (n : Nat) : List Byte → Memory
  | [] => m
  | b :: bs =>
    let m' := match imageAddress pageMap n with
      | some a => Memory.write m a b
      | none => m
    writeImageBytes m' pageMap (n + 1) bs

/-! ### Tables -/

/-- The staged record of an object id; `none` is FREE. -/
def ObjectTable.stagedAt (t : ObjectTable) (i : Nat) : Option ObjectFields := t.staged.getD i none

/-- The active record of an object id; `none` is FREE. -/
def ObjectTable.activeAt (t : ObjectTable) (i : Nat) : Option ActiveObject := t.active.getD i none

/-- The staged record of an object id replaced. -/
def ObjectTable.setStaged (t : ObjectTable) (i : Nat) (o : Option ObjectFields) : ObjectTable :=
  { t with staged := t.staged.setIfInBounds i o }

/-- The directory entry of a handle. -/
def ImageStore.entry (s : ImageStore) (h : Nat) : ImageEntry := s.directory.getD h ImageEntry.free

/-- The directory entry of a handle replaced. -/
def ImageStore.setEntry (s : ImageStore) (h : Nat) (e : ImageEntry) : ImageStore :=
  { s with directory := s.directory.setIfInBounds h e }

/-- Pages an entry holds: its page map, none when FREE (R69). -/
def ImageEntry.pages (e : ImageEntry) : List PageNo :=
  match e.image with
  | none => []
  | some im => im.pageMap

/-- The image of a handle goes FREE: its counts are 0 and its page map joins the tail of the free page list, in page-map
order (R32, R43, R81). -/
def ImageStore.freeImage (s : ImageStore) (h : Nat) : ImageStore :=
  { s with
    freePages := s.freePages ++ (s.entry h).pages
    directory := s.directory.setIfInBounds h ImageEntry.free }

/-- Entry `index` of active palette `palette`. -/
def PaletteUnit.entryAt (u : PaletteUnit) (palette index : Nat) : PaletteEntry :=
  (u.active.getD palette (Vector.replicate 256 PaletteEntry.zero)).getD index PaletteEntry.zero

/-- One pending write taken into the active palettes (R93). -/
def PaletteUnit.writeActive (u : PaletteUnit) (w : PaletteWrite) : PaletteUnit :=
  { u with
    active := u.active.setIfInBounds w.palette
      ((u.active.getD w.palette (Vector.replicate 256 PaletteEntry.zero)).setIfInBounds w.index w.entry) }

/-! ### Building reports (R165) -/

/-- A report packet: kind, source, contents length, contents and CRC. -/
def reportPacket (kind : Byte) (source : BitVec 4) (contents : List Byte) : List Byte :=
  let body := [kind, source.setWidth 8, u8 contents.length] ++ contents
  body ++ crcBytes body

/-- Report kinds. -/
def kindAck : Byte := 0x41
def kindEvent : Byte := 0x45

/-- Width or height of a geometry as reported: 0 when absent. -/
def geometryBytes : Option Geometry → List Byte
  | none => be16 0 ++ be16 0
  | some g => be16 g.w ++ be16 g.h

/-- The contents of an EVENT report: the kind and the kind's data (R165). -/
def Event.contents : Event → List Byte
  | .raster e =>
    [EventKind.raster.code, e.rasterState.code, flagByte [e.geometry.isSome]] ++ geometryBytes e.geometry ++
      [faultCode e.lastFault] ++ be16 e.counter.toNat
  | .commit e => [EventKind.commit.code] ++ be16 e.generation.toNat ++ be16 e.counter.toNat
  | .truncation e =>
    [EventKind.truncation.code, flagByte [e.firstLine.isSome, e.cutShort]] ++ be16 e.linesTruncated ++
      be16 (e.firstLine.getD 0) ++ be16 e.recordsOmitted ++ be16 e.frame.toNat
  | .link e =>
    [EventKind.link.code, e.cause.code] ++ be16 e.crcTally ++ be16 e.truncTally ++ be16 e.counter.toNat

/-- The EVENT report of an event, built by the unit at `source` (R151, R153). -/
def eventReport (source : BitVec 4) (e : Event) : List Byte := reportPacket kindEvent source e.contents

/-- The ACK report of an acknowledgement, with the REPEAT flag and the discard fields of the time it is built (R142, R165). -/
def ackReport (source : BitVec 4) (a : Ack) (isRepeat : Bool) (discards : Nat) (first : Option Byte) : List Byte :=
  reportPacket kindAck source
    ([a.seq, a.code, a.status.code, flagByte [isRepeat, first.isSome], u8 discards, first.getD 0] ++ a.data)

/-! ### The report queue and the pending event set (R150 to R153) -/

/-- Free slots: 8 less the reports held (R150). -/
def ReportUnit.freeSlots (r : ReportUnit) : Nat := Config.reportSlots - r.queue.length

/-- An event joins the set, or replaces the data of the entry of its kind (R152). -/
def PendingEvents.record (p : PendingEvents) : Event → PendingEvents
  | .raster e => { p with raster := some e }
  | .commit e => { p with commit := some e }
  | .truncation e => { p with truncation := some e }
  | .link e => { p with link := some e }

/-- The first pending entry in the fixed order RASTER, COMMIT, TRUNCATION, LINK (R153). -/
def PendingEvents.first (p : PendingEvents) : Option Event :=
  match p.raster with
  | some e => some (.raster e)
  | none =>
    match p.commit with
    | some e => some (.commit e)
    | none =>
      match p.truncation with
      | some e => some (.truncation e)
      | none => p.link.map .link

/-- The set without its entry of a kind. -/
def PendingEvents.drop (p : PendingEvents) : EventKind → PendingEvents
  | .raster => { p with raster := none }
  | .commit => { p with commit := none }
  | .truncation => { p with truncation := none }
  | .link => { p with link := none }

/-- The entries of kinds outside the mask dropped (R147). -/
def PendingEvents.restrict (p : PendingEvents) (m : EventMask) : PendingEvents where
  raster := if m.raster then p.raster else none
  commit := if m.commit then p.commit else none
  truncation := if m.truncation then p.truncation else none
  link := if m.link then p.link else none

/-- One pending event built into an EVENT report at the queue's tail, when at least two slots are free (R153). -/
def ReportUnit.buildOne (r : ReportUnit) (source : BitVec 4) : ReportUnit :=
  if r.freeSlots < 2 then r
  else
    match r.events.first with
    | none => r
    | some e => { r with queue := r.queue ++ [.filled (eventReport source e)], events := r.events.drop e.kind }

/-- The building repeated while both conditions of R153 hold: the set has at most four entries. -/
def ReportUnit.build (r : ReportUnit) (source : BitVec 4) : ReportUnit :=
  (((r.buildOne source).buildOne source).buildOne source).buildOne source

/-- An event of an enabled kind recorded, and the building of R153 made; an event of any other kind leaves nothing
behind (R152). -/
def ReportUnit.raise (r : ReportUnit) (source : BitVec 4) (mask : EventMask) (e : Event) : ReportUnit :=
  if mask.has e.kind then ({ r with events := r.events.record e }).build source else r

/-! ### Pins and links -/

/-- Symbols arrive and are taken: RESET_N is released and FWD_IN is UP (R117, R118). -/
def State.receiving (s : State) : Bool := !s.resetAsserted && s.fwdInUp

/-- The unit has an address, 0 to 14 (R119). -/
def State.addressed (s : State) : Bool := s.unitAddress != 15

/-- ROOM toward the unit below (R156); withdrawn while RESET_N is asserted (R149). -/
def State.roomBelow (s : State) : Bool := !s.resetAsserted && decide (s.reports.relay.length < Config.relayPlaces)

/-- RET_OUT presents link UP: its channel has alignment and RESET_N is released (R149, R118). -/
def State.retOutUp (s : State) : Bool := !s.resetAsserted && s.reports.outputLaneUp

/-! ### The arbiter (R157, R159) -/

/-- The packet that may be sent at the head of the report queue. -/
def ReportUnit.reportHead (r : ReportUnit) : Option (List Byte) :=
  match r.queue with
  | .filled b :: _ => some b
  | _ => none

/-- The packet received whole at the head of the relay queue. -/
def ReportUnit.relayHead (r : ReportUnit) : Option (List Byte) :=
  match r.relay with
  | [] => none
  | p :: _ => if p.whole then some p.bytes else none

/-- The packet at the head of a queue, ready to be sent. -/
def ReportUnit.headOf (r : ReportUnit) : QueueName → Option (List Byte)
  | .report => r.reportHead
  | .relay => r.relayHead

/-- The queue the arbiter serves: the one with a packet that may be sent, and with both the one the last-served mark does not
name (R157). -/
def ReportUnit.choice (r : ReportUnit) : Option QueueName :=
  match r.reportHead, r.relayHead with
  | none, none => none
  | some _, none => some .report
  | none, some _ => some .relay
  | some _, some _ => some (if r.lastServed = .report then .relay else .report)

/-- A transmission begun, on an UP lane with ROOM: an abandoned packet again from its start, ahead of any choice (R159), else
the queue the arbiter serves (R157). -/
def ReportUnit.begin (r : ReportUnit) : ReportUnit :=
  match r.transmitter with
  | .sending _ => r
  | .abandoned q => { r with transmitter := .sending q }
  | .free =>
    match r.choice with
    | none => r
    | some q => { r with transmitter := .sending q, lastServed := q }

/-- The arbiter decides, in the event that makes its conditions hold: with the output lane UP and ROOM from upstream asserted it
begins a transmission (R157), or the abandoned packet again (R159). -/
def startTransmission (s : State) : State :=
  { s with reports := if s.retOutUp && s.upstreamRoom then s.reports.begin else s.reports }

/-- A report filled into a report queue that had none at its head is one of the events at which the arbiter decides (R157);
`before` is the unit before the filling. -/
def reportFilled (before : ReportUnit) (s : State) : State :=
  { s with reports :=
      if before.reportHead.isNone && s.reports.reportHead.isSome then (startTransmission s).reports else s.reports }

/-! ### Raising an event -/

/-- An event raised to the report unit (R152); a report built into an empty queue is offered to the arbiter (R157). -/
def raise (e : Event) (s : State) : State :=
  reportFilled s.reports { s with reports := s.reports.raise s.unitAddress s.session.mask e }

/-- The RASTER event of the tracker's state as it stands (R113). -/
def raiseRaster (s : State) : State :=
  let t := s.tracker
  raise (.raster {
    rasterState := t.rasterState
    geometry := if t.rasterState = .locked ∨ t.rasterState = .disrupted then t.locked else none
    lastFault := t.fault.map FaultRecord.kind
    counter := t.frameCounter }) s

/-- The first reserved slot of a queue filled (R150). -/
def fillReserved (bytes : List Byte) : List ReportSlot → List ReportSlot
  | [] => []
  | .reserved :: q => .filled bytes :: q
  | .filled b :: q => .filled b :: fillReserved bytes q

/-! ### The hold queue and the slot of FWD_OUT (R129, R130) -/

/-- A symbol joins the tail of the hold queue. -/
def join (x : FwdSymbol) (held : Bool) (s : State) : State :=
  { s with filter := { s.filter with holdQueue := s.filter.holdQueue ++ [⟨x, held⟩] } }

/-- Every held symbol released unchanged. -/
def releaseHeld (q : List QueuedSymbol) : List QueuedSymbol := q.map fun e => { e with held := false }

/-- Every held symbol replaced by one released IDLE (R126). -/
def idleHeld (q : List QueuedSymbol) : List QueuedSymbol := q.map fun e => if e.held then ⟨.idle, false⟩ else e

/-- The bytes of the held packet, in order. -/
def heldBytes : List QueuedSymbol → List Byte
  | [] => []
  | ⟨.packetByte b, true⟩ :: q => b :: heldBytes q
  | _ :: q => heldBytes q

/-- FWD_OUT carries one more item. -/
def send (x : FwdOutput) (s : State) : State := { s with fwdSent := s.fwdSent ++ [x] }

/-- FWD_OUT presents DOWN. -/
def presentDown (s : State) : State := send .linkDown { s with fwdOutUp := false }

/-- FWD_OUT presents UP. -/
def presentUp (s : State) : State := send .linkUp { s with fwdOutUp := true }

/-- The last symbol of a drain has left: the output presents DOWN, and UP again at once when FWD_IN is UP with RESET_N released,
or when a further drain's symbols wait behind (R117, log entry 7). -/
def finishDrain (rest : List Nat) (s : State) : State :=
  let s' := presentDown { s with drains := rest }
  if rest ≠ [] ∨ s.receiving then presentUp s' else s'

/-- A symbol has left in a slot: with a drain under way it was one of the drain's, which ends when that was its last (R117, log
entry 6). -/
def countDrained (s : State) : State :=
  match s.drains with
  | [] => s
  | n :: rest => if n ≤ 1 then finishDrain rest s else { s with drains := (n - 1) :: rest }

/-- The slot of FWD_OUT that goes with an arriving symbol, after the symbol has joined: the head of the hold queue leaves if
it is released; while the head is held or the queue empty the output carries IDLE (R129). A drain's symbols stand at the head and
leave in these slots too, so the queue holds at most 258 symbols across a drain as well. DEDUCED (log entries 5, 6). -/
def outputSlot (s : State) : State :=
  match s.filter.holdQueue with
  | [] => send (.symbol .idle) s
  | e :: q =>
    if e.held then send (.symbol .idle) s
    else countDrained (send (.symbol e.symbol) { s with filter := { s.filter with holdQueue := q } })

/-- What an arriving symbol does when symbols are taken at all: `f`, then the slot of FWD_OUT. -/
def onSymbol (f : State → State) (s : State) : State := if s.receiving then outputSlot (f s) else s

end Sys2Proof.Machine
end

