-- ==== Sys2Proof/Machine/Compositor.lean ====
section
/-! DEFINITION. The line compositor (03_line_composition.md): the compositing decision, the candidate list, the outgoing
value of a pixel, and the truncation summaries. -/

namespace Sys2Proof.Machine

/-! ### Latching and stopping (R47, R65, R66) -/

/-- The working summary latched as the last-frame summary with the frame's count and its ending, the TRUNCATION event when
a line was truncated, and the working summary zeroed; the flag is cleared and the list emptied in the same event (R65, R66). -/
def latchSummary (cutShort : Bool) (s : State) : State :=
  let w := s.compositor.working
  let summary : FrameSummary := ⟨w.linesTruncated, w.firstLine, w.recordsOmitted, s.tracker.frameCounter, cutShort⟩
  let s' := { s with compositor := ⟨false, [], WorkingSummary.zero, summary⟩ }
  if 0 < w.linesTruncated then raise (.truncation summary) s' else s'

/-- Compositing stopped by a raster fault or link down; a flag already clear leaves the compositor as it was (R47). -/
def stopCompositing (s : State) : State := if s.compositor.compositing then latchSummary true s else s

/-- The compositor's part of a FRAME_END: a composited frame ends complete (R65). -/
def endCompositedFrame (s : State) : State := if s.compositor.compositing then latchSummary false s else s

/-- The compositing decision of a FRAME_START, from the raster state and active mode as they stand after it (R46). -/
def decideCompositing (s : State) : State :=
  { s with compositor := { s.compositor with
      compositing := decide (s.tracker.rasterState = .locked) && decide (s.generations.activeMode ≠ .pass) } }

/-- The candidate list emptied, as at each LINE_END (R51). -/
def emptyCandidates (s : State) : State := { s with compositor := { s.compositor with candidates := [] } }

/-! ### The candidate list of a line (R51 to R58) -/

/-- The image an active record names. -/
def State.imageOf (s : State) (o : ActiveObject) : Option Image := (s.images.entry o.fields.image).image

/-- The horizontal span [xa, xb) of a record on a raster `w` pixels wide (R53). -/
def spanOf (o : ActiveObject) (im : Image) (w : Nat) : Int × Int :=
  let xa := max o.ex 0
  let xb := min (o.ex + (im.width * o.fields.scaleX : Nat)) w
  match o.fields.clip with
  | none => (xa, xb)
  | some c => (max xa c.x0, min xb c.x1)

/-- The vertical tests of R52. -/
def onLine (o : ActiveObject) (im : Image) (y : Nat) : Bool :=
  decide (o.ey ≤ y) && decide ((y : Int) < o.ey + (im.height * o.fields.scaleY : Nat)) &&
  match o.fields.clip with
  | none => true
  | some c => decide (c.y0 ≤ y) && decide (y < c.y1)

/-- Distinct source columns within the span (R55). -/
def costOf (o : ActiveObject) (xa xb : Int) : Nat :=
  ((xb - 1 - o.ex) / (o.fields.scaleX : Int) - (xa - o.ex) / (o.fields.scaleX : Int) + 1).toNat

/-- The source row a record shows on line `y`, after flip_v (R60). -/
def sourceRowOf (o : ActiveObject) (im : Image) (y : Nat) : Nat :=
  let v := (((y : Int) - o.ey) / (o.fields.scaleY : Int)).toNat
  if o.fields.flipV then im.height - 1 - v else v

/-- The candidate a record makes on line `y` of a raster `w` pixels wide, when it is eligible (R52, R57). -/
def eligibleOn (s : State) (w y id : Nat) : Option Candidate :=
  match s.objects.activeAt id with
  | none => none
  | some o =>
    match s.imageOf o with
    | none => none
    | some im =>
      let span := spanOf o im w
      if o.fields.visible && onLine o im y && decide (span.1 < span.2) then
        some ⟨id, span.1.toNat, span.2.toNat, costOf o span.1 span.2, sourceRowOf o im y⟩
      else none

/-- The z of an active record. -/
def State.depthValue (s : State) (id : Nat) : Nat :=
  match s.objects.activeAt id with
  | none => 0
  | some o => o.fields.z

/-- `a` comes before `b` in priority order: higher z, then lower object id (R54). -/
def before (s : State) (a b : Candidate) : Bool :=
  decide (s.depthValue b.objectId < s.depthValue a.objectId) ||
  (decide (s.depthValue a.objectId = s.depthValue b.objectId) && decide (a.objectId < b.objectId))

/-- A candidate put into its place in priority order. -/
def insertByPriority (s : State) (c : Candidate) : List Candidate → List Candidate
  | [] => [c]
  | d :: l => if before s c d then c :: d :: l else d :: insertByPriority s c l

/-- The eligible records of a line, in priority order (R52, R54). -/
def eligibleList (s : State) (w y : Nat) : List Candidate :=
  ((List.range Config.objectCount).filterMap (eligibleOn s w y)).foldr (insertByPriority s) []

/-- Admission in priority order, stopping at the first record that fails the count or the budget (R56). -/
def admitted : List Candidate → Nat → Nat → List Candidate
  | [], _, _ => []
  | c :: l, n, total =>
    if n < Config.candidateLimit ∧ total + c.cost ≤ Config.fetchBudget then c :: admitted l (n + 1) (total + c.cost) else []

/-- The working summary after a line that omits `omitted` records (R64). -/
def WorkingSummary.afterLine (w : WorkingSummary) (y omitted : Nat) : WorkingSummary :=
  if omitted = 0 then w
  else ⟨w.linesTruncated + 1, some (w.firstLine.getD y), satAdd 65535 w.recordsOmitted omitted⟩

/-- The compositor's part of a LINE_START: while the flag is set, the list is built anew for the line begun, whose number
is lines begun less 1 (R51, R56, R64). -/
def buildLine (s : State) : State :=
  match s.compositor.compositing, s.tracker.locked with
  | true, some g =>
    let y := s.tracker.linesBegun - 1
    let all := eligibleList s g.w y
    let list := admitted all 0 0
    { s with compositor := { s.compositor with
        candidates := list
        working := s.compositor.working.afterLine y (all.length - list.length) } }
  | _, _ => s

/-! ### The outgoing value of a pixel (R59 to R62) -/

/-- One component blended: floor((a × c + (15 − a) × prev + 7) / 15) (R62). -/
def blendComponent (a c prev : Nat) : Nat := (a * c + (15 - a) * prev + 7) / 15

/-- A palette entry blended over the value so far, with the record's opacity (R62). -/
def blend (e : PaletteEntry) (opacity : Nat) (prev : Colour) : Colour :=
  let a := e.alpha * opacity / 15
  if a = 0 then prev
  else ⟨blendComponent a e.colour.c0 prev.c0, blendComponent a e.colour.c1 prev.c1, blendComponent a e.colour.c2 prev.c2⟩

/-- The source column a record shows at column `x`, after flip_h (R60). -/
def sourceColumnOf (o : ActiveObject) (im : Image) (x : Nat) : Nat :=
  let u := (((x : Int) - o.ex) / (o.fields.scaleX : Int)).toNat
  if o.fields.flipH then im.width - 1 - u else u

/-- The palette index at source column `u` and row `v` (R61). -/
def paletteIndexOf (m : Memory) (o : ActiveObject) (im : Image) (u v : Nat) : Nat :=
  if im.depth = 8 then (imageByte m im.pageMap (v * im.rowLength + u)).toNat
  else
    let b := (imageByte m im.pageMap (v * im.rowLength + u / 2)).toNat
    o.fields.row * 16 + (if u % 2 = 0 then b / 16 else b % 16)

/-- A candidate's part in the value of the pixel at column `x` (R59). -/
def applyCandidate (s : State) (x : Nat) (c : Candidate) (prev : Colour) : Colour :=
  if c.xa ≤ x ∧ x < c.xb then
    match s.objects.activeAt c.objectId with
    | none => prev
    | some o =>
      match s.imageOf o with
      | none => prev
      | some im =>
        let index := paletteIndexOf s.images.memory o im (sourceColumnOf o im x) c.sourceRow
        blend (s.palettes.entryAt o.fields.palette index) o.fields.opacity prev
  else prev

/-- The base value of a composited pixel (R48). -/
def basePixel (s : State) (input : Colour) : Colour :=
  match s.generations.activeMode with
  | .backdrop => s.generations.activeFill
  | .compose => input
  | .pass => input

/-- The value the pixel at column `x` leaves with: its input value while the flag is clear (R63); otherwise the base, with
the candidates visited in reverse priority order, farthest first (R59). -/
def outgoingPixel (s : State) (x : Nat) (input : Colour) : Colour :=
  if s.compositor.compositing then s.compositor.candidates.foldr (applyCandidate s x) (basePixel s input) else input

end Sys2Proof.Machine
end

