-- ==== Sys2Proof/Machine/Objects.lean ====
section
/-! DEFINITION. The object table (01_overlay_objects.md): anchor chains, the anchor checks, the five object commands and
the effective positions. -/

namespace Sys2Proof.Machine

/-- What an owning block answers (R135, stage 5): the state after the command, its status and its result data. -/
structure Answer where
  state : State
  status : Status
  data : List Byte
  deriving DecidableEq, Repr

/-- A refusal: nothing changed. -/
def refuse (s : State) (st : Status) (data : List Byte) : Answer := ⟨s, st, data⟩

/-! ### Anchor chains of the staged generation (R6, R13, R14) -/

/-- The record is DEFINED and its chain ends at a root within `n` links (R6). -/
def rootWithin (look : Nat → Option ObjectFields) : Nat → Nat → Bool
  | 0, i =>
    match look i with
    | none => false
    | some o => o.anchor.isNone
  | n + 1, i =>
    match look i with
    | none => false
    | some o =>
      match o.anchor with
      | none => true
      | some a => rootWithin look n a

/-- Depth: the links from a record to its root (R14), counted up to `n`. -/
def depthOf (look : Nat → Option ObjectFields) : Nat → Nat → Nat
  | 0, _ => 0
  | n + 1, i =>
    match look i with
    | none => 0
    | some o =>
      match o.anchor with
      | none => 0
      | some a => depthOf look n a + 1

/-- The ids of the DEFINED records anchored directly to `i`. -/
def anchoredTo (look : Nat → Option ObjectFields) (i : Nat) : List Nat :=
  (List.range Config.objectCount).filter fun j =>
    match look j with
    | none => false
    | some o => o.anchor == some i

/-- Height: 0 when no record anchors to `i`, else 1 more than the greatest height among those that do (R14), counted up to
`n`. -/
def heightOf (look : Nat → Option ObjectFields) : Nat → Nat → Nat
  | 0, _ => 0
  | n + 1, i => ((anchoredTo look i).map fun j => heightOf look n j + 1).foldr max 0

/-- The chain that starts at `i` and follows at most `n` anchors passes through `target` (R13). -/
def passesThrough (look : Nat → Option ObjectFields) (target : Nat) : Nat → Nat → Bool
  | 0, i => i == target
  | n + 1, i =>
    i == target ||
    match look i with
    | none => false
    | some o =>
      match o.anchor with
      | none => false
      | some a => passesThrough look target n a

/-- What the anchor checks find (stages 7 to 9 of R7). -/
inductive AnchorCheck where
  | passed
  | failed (status : Status) (data : List Byte)
  deriving DecidableEq, Repr

/-- Stages 7 to 9: `named` may serve as the anchor of `target` (R13, R14). The target itself counts as DEFINED. -/
def checkAnchor (t : ObjectTable) (target named : Nat) : AnchorCheck :=
  let look := t.stagedAt
  if (look named).isNone && named != target then .failed .noObject []
  else if passesThrough look target Config.maxLinks named then .failed .cycle [u8 named]
  else
    let length := depthOf look Config.maxLinks named + 1 + heightOf look Config.maxLinks target
    if Config.maxLinks < length then .failed .depth [u8 length] else .passed

/-- Stages 7 to 9 when an anchor is set; passed over otherwise. -/
def checkAnchorOption (t : ObjectTable) (target : Nat) : Option Nat → AnchorCheck
  | none => .passed
  | some named => checkAnchor t target named

/-- Stages 5 and 6: the image is READY (R7). -/
def imageRefusal (s : State) (h : Nat) : Option Status :=
  match (s.images.entry h).image with
  | none => some .noImage
  | some im => if im.phase = .ready then none else some .notReady

/-- Stages 5 and 6 when an image is named; passed over otherwise. -/
def imageRefusalOption (s : State) : Option Nat → Option Status
  | none => none
  | some h => imageRefusal s h

/-! ### Effects shared by the edits (R8) -/

/-- A staged reference count raised. -/
def ImageStore.addRef (st : ImageStore) (h : Nat) : ImageStore :=
  st.setEntry h { st.entry h with stagedRefs := (st.entry h).stagedRefs + 1 }

/-- A staged reference count lowered. -/
def ImageStore.dropRef (st : ImageStore) (h : Nat) : ImageStore :=
  st.setEntry h { st.entry h with stagedRefs := (st.entry h).stagedRefs - 1 }

/-- The staged counts after a record that named `o` (none: it was FREE) names `i` (none: it goes FREE); unchanged when both
are the same image (R8). -/
def ImageStore.moveRef (st : ImageStore) (o i : Option Nat) : ImageStore :=
  if o = i then st
  else
    let st' := match o with
      | none => st
      | some h => st.dropRef h
    match i with
    | none => st'
    | some h => st'.addRef h

/-- A staged record replaced, with the reference counts of R8 and the staged-dirty flag (R22). -/
def editStaged (id : Nat) (new : Option ObjectFields) (s : State) : State :=
  { s with
    objects := s.objects.setStaged id new
    images := s.images.moveRef ((s.objects.stagedAt id).map ObjectFields.image) (new.map ObjectFields.image)
    generations := { s.generations with stagedDirty := true } }

/-- The depth of a staged record as the ACK reports it (R9). -/
def stagedDepth (s : State) (id : Nat) : Nat := depthOf s.objects.stagedAt Config.maxLinks id

/-! ### The commands -/

/-- DEFINE_OBJECT (R9): stages 2, 3, 5 to 9 of R7, then the record with exactly the carried fields. -/
def commandDefineObject (p : List Byte) (s : State) : Answer :=
  let id := byteAt p 0
  let new := defineFields p
  if s.generations.commit.isArmed then refuse s .armed []
  else if !defineInRange p then refuse s .range []
  else
    match imageRefusal s new.image with
    | some st => refuse s st []
    | none =>
      match checkAnchorOption s.objects id new.anchor with
      | .failed st data => refuse s st data
      | .passed =>
        let s' := editStaged id (some new) s
        ⟨s', .ok, [u8 id, u8 (stagedDepth s' id)]⟩

/-- MOVE_OBJECT (R10): stages 2 to 4 of R7, then x and y. -/
def commandMoveObject (p : List Byte) (s : State) : Answer :=
  let id := byteAt p 0
  if s.generations.commit.isArmed then refuse s .armed []
  else if !moveInRange p then refuse s .range []
  else
    match s.objects.stagedAt id with
    | none => refuse s .noObject []
    | some o => ⟨editStaged id (some { o with x := s16At p 1, y := s16At p 3 }) s, .ok, [u8 id]⟩

/-- SET_OBJECT_ATTR (R11, R12): stages 2 to 4, 5 and 6 for an image item, 7 to 9 for an anchor that is set, then every
present item together. -/
def commandSetObjectAttr (p : List Byte) (s : State) : Answer :=
  let id := byteAt p 0
  if s.generations.commit.isArmed then refuse s .armed []
  else if !attrInRange p then refuse s .range []
  else
    match s.objects.stagedAt id with
    | none => refuse s .noObject []
    | some o =>
      match imageRefusalOption s (attrImage p) with
      | some st => refuse s st []
      | none =>
        match checkAnchorOption s.objects id (attrAnchor p) with
        | .failed st data => refuse s st data
        | .passed =>
          let s' := editStaged id (some (attrFields p o)) s
          ⟨s', .ok, [u8 id, u8 (stagedDepth s' id)]⟩

/-- DELETE_OBJECT (R15): stages 2 to 4 and 10 of R7, then the record FREE. -/
def commandDeleteObject (p : List Byte) (s : State) : Answer :=
  let id := byteAt p 0
  if s.generations.commit.isArmed then refuse s .armed []
  else if !decide (id < 64) then refuse s .range []
  else
    match s.objects.stagedAt id with
    | none => refuse s .noObject []
    | some _ =>
      if anchoredTo s.objects.stagedAt id ≠ [] then refuse s .inUse []
      else ⟨editStaged id none s, .ok, [u8 id]⟩

/-- The fields of a record as READ_OBJECT returns them: bytes 1 to 25 of DEFINE_OBJECT's payload, 0 where a part is absent
("The object record as read"). -/
def ObjectFields.bytes (o : ObjectFields) : List Byte :=
  [u8 o.image] ++ beSigned16 o.x ++ beSigned16 o.y ++
  [u8 o.z, u8 o.palette, u8 o.row, u8 o.scaleX, u8 o.scaleY, boolByte o.flipH, boolByte o.flipV, u8 o.opacity,
   boolByte o.visible, boolByte o.anchor.isSome, u8 (o.anchor.getD 0), boolByte o.clip.isSome] ++
  match o.clip with
  | none => be16 0 ++ be16 0 ++ be16 0 ++ be16 0
  | some c => be16 c.x0 ++ be16 c.y0 ++ be16 c.x1 ++ be16 c.y1

/-- The result data of READ_OBJECT (R16, R17). -/
def readObjectData (t : ObjectTable) (selector id : Nat) : List Byte :=
  if selector = 0 then
    match t.stagedAt id with
    | none => [0, u8 id, 0]
    | some o => [0, u8 id, 1] ++ o.bytes
  else
    match t.activeAt id with
    | none => [1, u8 id, 0]
    | some o => [1, u8 id, 1] ++ o.fields.bytes ++ beSigned16 o.ex ++ beSigned16 o.ey

/-- READ_OBJECT (R16): RANGE, then the record of the generation selected. -/
def commandReadObject (p : List Byte) (s : State) : Answer :=
  if !(decide (byteAt p 0 < 64) && isChoice (byteAt p 1)) then refuse s .range []
  else ⟨s, .ok, readObjectData s.objects (byteAt p 1) (byteAt p 0)⟩

/-! ### Effective positions (R18) -/

/-- The position of a record with its anchors followed through at most `n` links: the sums of x and of y along the chain
(R18). -/
def effectivePosition (look : Nat → Option ObjectFields) : Nat → ObjectFields → Int × Int
  | 0, o => (o.x, o.y)
  | n + 1, o =>
    match o.anchor.bind look with
    | none => (o.x, o.y)
    | some a =>
      let q := effectivePosition look n a
      (q.1 + o.x, q.2 + o.y)

/-- The active record made from a staged one at an apply (R18, R31). -/
def resolve (look : Nat → Option ObjectFields) (o : ObjectFields) : ActiveObject :=
  let q := effectivePosition look Config.maxLinks o
  ⟨o, q.1, q.2⟩

/-- The staged records copied into the active generation with their effective positions (R31). -/
def ObjectTable.applyStaged (t : ObjectTable) : ObjectTable :=
  { t with active := t.staged.map (Option.map (resolve t.stagedAt)) }

/-- Every staged record made a copy of the active record of the same id (R40). -/
def ObjectTable.discardStaged (t : ObjectTable) : ObjectTable :=
  { t with staged := t.active.map (Option.map ActiveObject.fields) }

/-- All 64 staged records FREE (R42). -/
def ObjectTable.clearStaged (t : ObjectTable) : ObjectTable := { t with staged := Vector.replicate 64 none }

/-- Number of DEFINED staged records. -/
def ObjectTable.stagedCount (t : ObjectTable) : Nat := t.staged.toList.countP Option.isSome

/-- Number of DEFINED active records. -/
def ObjectTable.activeCount (t : ObjectTable) : Nat := t.active.toList.countP Option.isSome

end Sys2Proof.Machine
end

