-- ==== Sys2Proof/Machine/Images.lean ====
section
/-! DEFINITION. The image store (04_image_store.md): its five commands, and what apply, DISCARD and CLEAR_ALL do to it. -/

namespace Sys2Proof.Machine

/-- Free page count. -/
def ImageStore.freeCount (st : ImageStore) : Nat := st.freePages.length

/-! ### The commands -/

/-- The LOADING image CREATE_IMAGE sets up: page numbers from the head of the free page list (R75). -/
def newImage (st : ImageStore) (w h d : Nat) : Image where
  phase := .loading
  width := w
  height := h
  depth := d
  rowLength := rowLengthOf w d
  size := rowLengthOf w d * h
  pageMap := st.freePages.take (pagesFor (rowLengthOf w d * h))
  cursor := 0

/-- CREATE_IMAGE (R74, R75). -/
def commandCreateImage (p : List Byte) (s : State) : Answer :=
  let handle := byteAt p 0
  let w := u16At p 1
  let h := u16At p 3
  let d := byteAt p 5
  let e := s.images.entry handle
  let pages := pagesFor (rowLengthOf w d * h)
  if !decide (handle < 128) then refuse s .range []
  else if e.image.isSome then refuse s .inUse [u8 handle, e.stateCode]
  else if !imageShapeInRange w h d then refuse s .range []
  else if s.images.freeCount < pages then refuse s .noSpace (be16 pages ++ be16 s.images.freeCount)
  else
    let st := { s.images with freePages := s.images.freePages.drop pages }
    let st' := st.setEntry handle { e with image := some (newImage s.images w h d) }
    ⟨{ s with images := st' }, .ok,
      [u8 handle] ++ be32 (rowLengthOf w d * h) ++ be16 pages ++ be16 st'.freeCount⟩

/-- The result data of every LOAD_IMAGE acknowledgement: handle, load cursor and state, cursor 0 and FREE for a FREE entry or
a handle out of range (R76, R167). -/
def loadData (st : ImageStore) (handle : Nat) : List Byte :=
  if handle < 128 then
    let e := st.entry handle
    [u8 handle] ++ be32 ((e.image.map Image.cursor).getD 0) ++ [e.stateCode]
  else [u8 handle] ++ be32 0 ++ [0]

/-- The image after `count` bytes at its cursor: READY when the cursor reaches the size (R77). -/
def Image.advance (im : Image) (count : Nat) : Image :=
  let c := im.cursor + count
  { im with cursor := c, phase := if c = im.size then .ready else .loading }

/-- LOAD_IMAGE (R76, R77). -/
def commandLoadImage (p : List Byte) (s : State) : Answer :=
  let handle := byteAt p 0
  let offset := u16At p 1
  let bytes := p.drop 3
  let no (st : Status) : Answer := refuse s st (loadData s.images handle)
  if !decide (handle < 128) then no .range
  else
    let e := s.images.entry handle
    match e.image with
    | none => no .notReady
    | some im =>
      if im.phase ≠ .loading then no .notReady
      else if offset ≠ im.cursor then no .offset
      else if im.size < offset + bytes.length then no .range
      else
        let st := { s.images with memory := writeImageBytes s.images.memory im.pageMap offset bytes }
        let st' := st.setEntry handle { e with image := some (im.advance bytes.length) }
        ⟨{ s with images := st' }, .ok, loadData st' handle⟩

/-- RESTART_IMAGE (R79). -/
def commandRestartImage (p : List Byte) (s : State) : Answer :=
  let handle := byteAt p 0
  if !decide (handle < 128) then refuse s .range []
  else
    let e := s.images.entry handle
    if 0 < e.activeRefs then refuse s .inDisplay []
    else if 0 < e.stagedRefs then refuse s .inUse []
    else
      match e.image with
      | none => refuse s .notReady []
      | some im =>
        if im.phase ≠ .ready then refuse s .notReady []
        else
          let im' := { im with phase := .loading, cursor := 0 }
          ⟨{ s with images := s.images.setEntry handle { e with image := some im' } }, .ok,
            [u8 handle] ++ be32 im.size ++ be32 0 ++ [ImagePhase.loading.code]⟩

/-- RELEASE_IMAGE (R80, R81). -/
def commandReleaseImage (p : List Byte) (s : State) : Answer :=
  let handle := byteAt p 0
  if !decide (handle < 128) then refuse s .range []
  else
    let e := s.images.entry handle
    if 0 < e.stagedRefs then refuse s .inUse [u8 handle, u8 e.stagedRefs]
    else
      match e.image with
      | none => refuse s .notReady []
      | some im =>
        if im.phase = .retiring then refuse s .notReady []
        else
          let st :=
            if im.phase = .ready ∧ 0 < e.activeRefs then
              s.images.setEntry handle { e with image := some { im with phase := .retiring } }
            else s.images.freeImage handle
          ⟨{ s with images := st }, .ok, [u8 handle, (st.entry handle).stateCode] ++ be16 st.freeCount⟩

/-- The result data of IMAGE_INFO (R84). -/
def imageInfoData (st : ImageStore) (handle : Nat) : List Byte :=
  let e := st.entry handle
  [u8 handle, e.stateCode] ++ be16 st.freeCount ++ [u8 e.stagedRefs, u8 e.activeRefs] ++
  match e.image with
  | none => []
  | some im =>
    be16 im.width ++ be16 im.height ++ [u8 im.depth] ++ be32 im.size ++ be16 im.pageMap.length ++
      be16 ((im.pageMap.head?.map Fin.val).getD 0) ++ be16 ((im.pageMap.getLast?.map Fin.val).getD 0) ++ be32 im.cursor

/-- IMAGE_INFO (R84). -/
def commandImageInfo (p : List Byte) (s : State) : Answer :=
  let handle := byteAt p 0
  if !decide (handle < 128) then refuse s .range [] else ⟨s, .ok, imageInfoData s.images handle⟩

/-! ### What the generation controller does to the store (R32, R41 to R43) -/

/-- An entry after an apply: the active count becomes the staged count, and a RETIRING image whose active count becomes 0
goes FREE (R32). -/
def ImageEntry.freedByApply (e : ImageEntry) : Bool :=
  match e.image with
  | none => false
  | some im => decide (im.phase = .retiring) && decide (e.stagedRefs = 0)

def ImageEntry.afterApply (e : ImageEntry) : ImageEntry :=
  if e.freedByApply then ImageEntry.free else { e with activeRefs := e.stagedRefs }

/-- The apply reaches the image store: freed images in ascending order of handle, each with its whole page map before the next
(R32, R83). -/
def ImageStore.applyCounts (st : ImageStore) : ImageStore :=
  { st with
    directory := st.directory.map ImageEntry.afterApply
    freePages := st.freePages ++ (st.directory.toList.filter ImageEntry.freedByApply).flatMap ImageEntry.pages }

/-- The image is RETIRING. -/
def ImageEntry.isRetiring (e : ImageEntry) : Bool :=
  match e.image with
  | none => false
  | some im => decide (im.phase = .retiring)

/-- An entry after DISCARD: the staged count becomes the active count and a RETIRING image returns to READY (R41). -/
def ImageEntry.afterDiscard (e : ImageEntry) : ImageEntry :=
  { e with
    stagedRefs := e.activeRefs
    image := e.image.map fun im => if im.phase = .retiring then { im with phase := .ready } else im }

/-- DISCARD reaches the image store (R41). -/
def ImageStore.discardCounts (st : ImageStore) : ImageStore :=
  { st with directory := st.directory.map ImageEntry.afterDiscard }

/-- Images that DISCARD returns to READY. -/
def ImageStore.retiringCount (st : ImageStore) : Nat := st.directory.toList.countP ImageEntry.isRetiring

/-- CLEAR_ALL makes the image FREE: LOADING, or READY with no active reference (R43). -/
def ImageEntry.freedByClear (e : ImageEntry) : Bool :=
  match e.image with
  | none => false
  | some im => decide (im.phase = .loading) || (decide (im.phase = .ready) && decide (e.activeRefs = 0))

/-- CLEAR_ALL makes the image RETIRING: READY with active references (R43). -/
def ImageEntry.retiredByClear (e : ImageEntry) : Bool :=
  match e.image with
  | none => false
  | some im => decide (im.phase = .ready) && decide (0 < e.activeRefs)

/-- An entry after CLEAR_ALL's clearing: the staged count 0, and the state by R43. -/
def ImageEntry.afterClear (e : ImageEntry) : ImageEntry :=
  if e.freedByClear then ImageEntry.free
  else if e.retiredByClear then
    { e with stagedRefs := 0, image := e.image.map fun im => { im with phase := .retiring } }
  else { e with stagedRefs := 0 }

/-- CLEAR_ALL reaches the image store: the images it frees in ascending order of handle (R42, R43). -/
def ImageStore.clearCounts (st : ImageStore) : ImageStore :=
  { st with
    directory := st.directory.map ImageEntry.afterClear
    freePages := st.freePages ++ (st.directory.toList.filter ImageEntry.freedByClear).flatMap ImageEntry.pages }

/-- Entries in a state, by its reported code (R146). -/
def ImageStore.countState (st : ImageStore) (code : Byte) : Nat := st.directory.toList.countP fun e => e.stateCode == code

end Sys2Proof.Machine
end

