-- ==== Sys2Proof/Machine/Palettes.lean ====
section
/-! DEFINITION. The palette unit (05_palettes.md): the pending palette write list and its two commands. -/

namespace Sys2Proof.Machine

/-- A write is for this (palette, index). -/
def PaletteWrite.isFor (palette index : Nat) (w : PaletteWrite) : Bool := w.palette == palette && w.index == index

/-- The list holds a write for the same pair. -/
def isPending (l : List PaletteWrite) (w : PaletteWrite) : Bool := l.any (PaletteWrite.isFor w.palette w.index)

/-- One write taken into the list: in place when its pair is pending, else at the tail (R91). -/
def putWrite (l : List PaletteWrite) (w : PaletteWrite) : List PaletteWrite :=
  if isPending l w then l.map fun v => if PaletteWrite.isFor w.palette w.index v then w else v else l ++ [w]

/-- The pairs a run of writes adds to the list (R92). -/
def addedCount (l ws : List PaletteWrite) : Nat := ws.countP fun w => !isPending l w

/-- The result data of every WRITE_PALETTE acknowledgement (R91, R167). -/
def writePaletteData (p : List Byte) (length added replaced : Nat) : List Byte :=
  [u8 (byteAt p 0), u8 (byteAt p 1)] ++ be16 length ++ [u8 added, u8 replaced]

/-- WRITE_PALETTE (R90 to R92). -/
def commandWritePalette (p : List Byte) (s : State) : Answer :=
  let l := s.palettes.writes
  let no (st : Status) (added : Nat) : Answer := refuse s st (writePaletteData p l.length added 0)
  if s.generations.commit.isArmed then no .armed 0
  else if !paletteWriteInRange p then no .range 0
  else
    let ws := paletteWrites p
    let added := addedCount l ws
    if Config.pendingWrites < l.length + added then no .full added
    else
      let l' := ws.foldl putWrite l
      ⟨{ s with
          palettes := { s.palettes with writes := l' }
          generations := { s.generations with stagedDirty := true } },
        .ok, writePaletteData p l'.length added (ws.length - added)⟩

/-- The entry and its colour as READ_PALETTE returns them. -/
def PaletteEntry.bytes (e : PaletteEntry) : List Byte :=
  be16 e.colour.c0 ++ be16 e.colour.c1 ++ be16 e.colour.c2 ++ [u8 e.alpha]

/-- The result data of READ_PALETTE (R96, R167): the active entry, or with the flag set the pending write and its position. -/
def readPaletteData (u : PaletteUnit) (palette index : Nat) (wantPending : Bool) : List Byte :=
  let active := [u8 palette, u8 index, 0] ++ (u.entryAt palette index).bytes ++ [0] ++ be16 u.writes.length
  if wantPending then
    match u.writes.find? (PaletteWrite.isFor palette index) with
    | none => active
    | some w =>
      [u8 palette, u8 index, 1] ++ w.entry.bytes ++ [u8 (u.writes.findIdx (PaletteWrite.isFor palette index))] ++
        be16 u.writes.length
  else active

/-- READ_PALETTE (R96). -/
def commandReadPalette (p : List Byte) (s : State) : Answer :=
  if !(decide (byteAt p 0 < 8) && isChoice (byteAt p 2)) then refuse s .range []
  else ⟨s, .ok, readPaletteData s.palettes (byteAt p 0) (byteAt p 1) (byteAt p 2 == 1)⟩

/-- The pending writes taken into the active palettes in list order, and the list emptied (R93). -/
def PaletteUnit.applyWrites (u : PaletteUnit) : PaletteUnit :=
  { u.writes.foldl PaletteUnit.writeActive u with writes := [] }

end Sys2Proof.Machine
end

