-- ==== Sys2Proof/Machine/Generations.lean ====
section
/-! DEFINITION. The generation controller (02_generations_and_commit.md): the apply, the four forms of COMMIT, CANCEL_COMMIT,
SET_MODE, DISCARD and CLEAR_ALL. -/

namespace Sys2Proof.Machine

/-! ### The apply (R30 to R33) -/

/-- The apply without its event: records, mode, fill colour, palettes and reference counts, then the generation number, the
staged-dirty flag and the commit state (R31 to R33). -/
def applyTables (s : State) : State :=
  { s with
    objects := s.objects.applyStaged
    palettes := s.palettes.applyWrites
    images := s.images.applyCounts
    generations := { s.generations with
      activeMode := s.generations.stagedMode
      activeFill := s.generations.stagedFill
      generation := s.generations.generation + 1
      commit := .idle
      stagedDirty := false } }

/-- The apply: the staged generation becomes the active one, and the COMMIT event carries the new generation number and the
frame counter as it stands (R31 to R33). -/
def applyGeneration (s : State) : State :=
  let s' := applyTables s
  raise (.commit ⟨s'.generations.generation, s'.tracker.frameCounter⟩) s'

/-- The commit state calls for an apply at a FRAME_START after which the counter is `counter` (R30). -/
def CommitState.dueAt (counter : Word16) : CommitState → Bool
  | .idle => false
  | .armedNext => true
  | .armedAt t => t == counter

/-- The generation controller at a FRAME_START the tracker has taken (R30). -/
def applyIfDue (s : State) : State :=
  if s.generations.commit.dueAt s.tracker.frameCounter then applyGeneration s else s

/-! ### COMMIT (R25 to R28) -/

/-- The tracker is LOCKED. -/
def State.isLocked (s : State) : Bool := decide (s.tracker.rasterState = .locked)

/-- The commit state set. -/
def setCommit (c : CommitState) (s : State) : State := { s with generations := { s.generations with commit := c } }

/-- The result data of every COMMIT acknowledgement but a NAK LENGTH: the commit state, target and generation number after
the command, the frame counter and staged-dirty as they stood when it was taken (R25). -/
def commitData (before after : State) : List Byte :=
  [after.generations.commit.code] ++ be16 after.generations.commit.targetValue ++
  be16 before.tracker.frameCounter.toNat ++ be16 after.generations.generation.toNat ++
  [boolByte before.generations.stagedDirty]

/-- A COMMIT acknowledgement. -/
def commitAnswer (before after : State) (st : Status) : Answer := ⟨after, st, commitData before after⟩

/-- The horizon of a COMMIT AT: the target less the frame counter, modulo 65536 (R27). -/
def horizonOf (s : State) (target : Word16) : Nat := (target - s.tracker.frameCounter).toNat

/-- COMMIT NEXT (R26). -/
def commandCommitNext (s : State) : Answer :=
  if s.generations.commit.isArmed then commitAnswer s s .armed else commitAnswer s (setCommit .armedNext s) .ok

/-- COMMIT AT (R27). -/
def commandCommitAt (target : Word16) (s : State) : Answer :=
  if s.generations.commit.isArmed then commitAnswer s s .armed
  else if horizonOf s target < 1 ∨ 1024 < horizonOf s target then commitAnswer s s .range
  else commitAnswer s (setCommit (.armedAt target) s) .ok

/-- COMMIT NOW (R28). -/
def commandCommitNow (s : State) : Answer :=
  if s.generations.commit.isArmed then commitAnswer s s .armed
  else if s.isLocked then commitAnswer s s .locked
  else commitAnswer s (applyGeneration s) .ok

/-- A COMMIT whose mode byte is none of NEXT, AT and NOW: refused, ARMED before RANGE (R25). -/
def commandCommitOther (s : State) : Answer :=
  if s.generations.commit.isArmed then commitAnswer s s .armed else commitAnswer s s .range

/-- COMMIT by its mode byte (R25). -/
def commandCommit (p : List Byte) (s : State) : Answer :=
  match byteAt p 0 with
  | 0 => commandCommitNext s
  | 1 => commandCommitAt (commitTarget p) s
  | 2 => commandCommitNow s
  | _ => commandCommitOther s

/-- CANCEL_COMMIT (R29): the result data are the commit state and target before the command, and the counter. -/
def commandCancelCommit (s : State) : Answer :=
  let c := s.generations.commit
  let data := [c.code] ++ be16 c.targetValue ++ be16 s.tracker.frameCounter.toNat
  if c.isArmed then ⟨setCommit .idle s, .ok, data⟩ else refuse s .notArmed data

/-! ### SET_MODE, DISCARD and CLEAR_ALL (R39 to R43) -/

/-- A colour as it travels. -/
def Colour.bytes (c : Colour) : List Byte := be16 c.c0 ++ be16 c.c1 ++ be16 c.c2

/-- SET_MODE (R39). -/
def commandSetMode (p : List Byte) (s : State) : Answer :=
  if s.generations.commit.isArmed then refuse s .armed []
  else
    match outputModeOf (byteAt p 0) with
    | none => refuse s .range []
    | some m =>
      let fill := colourAt p 1
      if !colourInRange fill then refuse s .range []
      else
        ⟨{ s with generations := { s.generations with stagedMode := m, stagedFill := fill, stagedDirty := true } }, .ok,
          [m.code] ++ fill.bytes⟩

/-- The staged side made a copy of the active side (R40, R41). -/
def discardStagedSide (s : State) : State :=
  { s with
    objects := s.objects.discardStaged
    images := s.images.discardCounts
    palettes := { s.palettes with writes := [] }
    generations := { s.generations with
      stagedMode := s.generations.activeMode
      stagedFill := s.generations.activeFill
      stagedDirty := false } }

/-- DISCARD (R40, R41). -/
def commandDiscard (s : State) : Answer :=
  if s.generations.commit.isArmed then refuse s .armed []
  else ⟨discardStagedSide s, .ok, be16 s.generations.generation.toNat ++ [u8 s.images.retiringCount]⟩

/-- The clearing of CLEAR_ALL: the armed commit withdrawn, the staged side cleared, and every image retired or freed (R42,
R43). The staged fill colour keeps its value. -/
def clearStagedSide (s : State) : State :=
  { s with
    objects := s.objects.clearStaged
    images := s.images.clearCounts
    palettes := { s.palettes with writes := [] }
    generations := { s.generations with stagedMode := .pass, commit := .idle, stagedDirty := true } }

/-- CLEAR_ALL (R42, R43): the clearing, then NEXT armed while LOCKED, or the apply at once. -/
def commandClearAll (s : State) : Answer :=
  let retired := s.images.directory.toList.countP ImageEntry.retiredByClear
  let freed := s.images.directory.toList.countP ImageEntry.freedByClear
  let cleared := clearStagedSide s
  let s' := if s.isLocked then setCommit .armedNext cleared else applyGeneration cleared
  ⟨s', .ok, [s'.generations.commit.code] ++ be16 s'.generations.generation.toNat ++ [u8 retired, u8 freed]⟩

end Sys2Proof.Machine
end

