-- ==== Sys2Proof/Machine/Session.lean ====
section
/-! DEFINITION. The command session (08_command_session.md): acceptance, the sequence protocol, dispatch, the
acknowledgement, broadcasts, and the session's own commands. -/

namespace Sys2Proof.Machine

/-! ### HELLO, STATUS and SET_EVENTS -/

/-- The identity reply (R145, "The identity reply"). -/
def identityReply (s : State) : List Byte :=
  be16 Config.partCode ++ [u8 Config.revision, s.unitAddress.setWidth 8, s.session.expected.getD 0,
    u8 Config.objectCount, u8 Config.handleCount] ++ be16 Config.pageCount ++ [u8 Config.pageBytes, u8 Config.paletteCount] ++
  be16 Config.entryCount ++ be16 Config.pendingWrites ++ [u8 Config.candidateLimit] ++ be16 Config.fetchBudget ++
  [u8 Config.reportSlots, u8 Config.relayPlaces]

/-- HELLO once accepted (R145): the sequence step of stage 3 is made already. -/
def commandHello (s : State) : Answer := ⟨s, .ok, identityReply s⟩

/-- The fault record in the status record: kind, frame count and line, 0 when absent. -/
def faultBytes : Option FaultRecord → List Byte
  | none => [0] ++ be16 0 ++ be16 0
  | some r => [r.kind.code] ++ be16 r.frame.toNat ++ be16 r.line

/-- The status record, 46 bytes (R146, "The status record"). -/
def statusRecord (s : State) : List Byte :=
  let t := s.tracker
  let g := s.generations
  let f := s.compositor.lastFrame
  [t.rasterState.code,
    flagByte [t.locked.isSome, t.fault.isSome, g.stagedDirty, f.firstLine.isSome, f.cutShort]] ++
  geometryBytes t.locked ++ be16 t.frameCounter.toNat ++ faultBytes t.fault ++
  be16 g.generation.toNat ++ [g.commit.code] ++ be16 g.commit.targetValue ++ [g.activeMode.code] ++
  be16 s.images.freeCount ++
  [u8 (s.images.countState 0), u8 (s.images.countState 1), u8 (s.images.countState 2), u8 (s.images.countState 3)] ++
  [u8 s.objects.stagedCount, u8 s.objects.activeCount] ++ be16 s.palettes.writes.length ++
  be16 f.linesTruncated ++ be16 (f.firstLine.getD 0) ++ be16 f.recordsOmitted ++ be16 f.frame.toNat ++
  be16 s.filter.crcTally ++ be16 s.filter.truncTally ++ [u8 s.session.discardTally, u8 s.session.refusalTally] ++
  [s.reports.events.byte, s.session.mask.byte, u8 s.reports.freeSlots]

/-- STATUS (R146). -/
def commandStatus (s : State) : Answer := ⟨s, .ok, statusRecord s⟩

/-- SET_EVENTS (R147): the mask in place of the old one, and pending events of disabled kinds dropped. -/
def commandSetEvents (p : List Byte) (s : State) : Answer :=
  match EventMask.ofByte (byteAt p 0) with
  | none => refuse s .range []
  | some m =>
    let s' := { s with
      session := { s.session with mask := m }
      reports := { s.reports with events := s.reports.events.restrict m } }
    ⟨s', .ok, [m.byte, s'.reports.events.byte]⟩

/-! ### Dispatch (R141) -/

/-- Stage 4 and 5 of R135: UNKNOWN, LENGTH, or the owning block's answer. -/
def dispatch (code : Byte) (p : List Byte) (s : State) : Answer :=
  if !listedCodes.contains code then refuse s .unknown []
  else if !lengthFits code p then refuse s .length []
  else if code = codeHello then commandHello s
  else if code = codeStatus then commandStatus s
  else if code = codeSetEvents then commandSetEvents p s
  else if code = codeDefineObject then commandDefineObject p s
  else if code = codeMoveObject then commandMoveObject p s
  else if code = codeSetObjectAttr then commandSetObjectAttr p s
  else if code = codeDeleteObject then commandDeleteObject p s
  else if code = codeReadObject then commandReadObject p s
  else if code = codeCommit then commandCommit p s
  else if code = codeCancelCommit then commandCancelCommit s
  else if code = codeSetMode then commandSetMode p s
  else if code = codeDiscard then commandDiscard s
  else if code = codeClearAll then commandClearAll s
  else if code = codeCreateImage then commandCreateImage p s
  else if code = codeLoadImage then commandLoadImage p s
  else if code = codeRestartImage then commandRestartImage p s
  else if code = codeReleaseImage then commandReleaseImage p s
  else if code = codeImageInfo then commandImageInfo p s
  else if code = codeWritePalette then commandWritePalette p s
  else commandReadPalette p s

/-! ### Accepting a unicast command (R135 to R142) -/

/-- A discard at stage 1 counted (R137). -/
def countDiscard (seq : Byte) (s : State) : State :=
  { s with session := { s.session with
      firstDiscarded := if s.session.discardTally = 0 then some seq else s.session.firstDiscarded
      discardTally := satSucc 255 s.session.discardTally } }

/-- One report slot reserved at the queue's tail (R136, R150). -/
def reserveSlot (s : State) : State := { s with reports := { s.reports with queue := s.reports.queue ++ [.reserved] } }

/-- The acknowledgement built into the reserved slot, with the discard fields as they stand, which are then cleared (R137,
R142); filled at the head of the queue, it is offered to the arbiter (R157). -/
def fillSlot (a : Ack) (isRepeat : Bool) (s : State) : State :=
  let bytes := ackReport s.unitAddress a isRepeat s.session.discardTally s.session.firstDiscarded
  reportFilled s.reports { s with
    reports := { s.reports with queue := fillReserved bytes s.reports.queue }
    session := { s.session with discardTally := 0, firstDiscarded := none } }

/-- The result data of a NAK SEQUENCE: the session state and E, 0 for "expected none" (R138, R139, R167). -/
def sequenceData (s : State) : List Byte := [s.session.sessionState.code, s.session.expected.getD 0]

/-- Stage 3 passed: the sequence number consumed and the session SYNCED (R135, R139, R145). -/
def consume (seq : Byte) (s : State) : State :=
  { s with session := { s.session with sessionState := .synced, last := some seq, expected := some (seq + 1) } }

/-- An accepted command: its number consumed, dispatched, and its acknowledgement cached and built (R135, R141, R142). -/
def acceptCommand (seq code : Byte) (p : List Byte) (s : State) : State :=
  let r := dispatch code p (consume seq s)
  let a : Ack := ⟨seq, code, r.status, r.data⟩
  fillSlot a false { r.state with session := { r.state.session with cached := some a } }

/-- A NAK SEQUENCE: not executed, not cached (R138, R139). -/
def answerSequence (seq code : Byte) (s : State) : State := fillSlot ⟨seq, code, .sequence, sequenceData s⟩ false s

/-- The cached acknowledgement that answers a packet numbered L again (R140). -/
def repeatOf (seq : Byte) (s : State) : Option Ack := if s.session.last = some seq then s.session.cached else none

/-- Stages 2 and 3 with the slot reserved (R138 to R140): HELLO alone in UNSYNCED; in SYNCED a number equal to L gets the
cached acknowledgement marked REPEAT, E or a HELLO is accepted, and any other number is refused. -/
def sequenceStage (seq code : Byte) (p : List Byte) (s : State) : State :=
  match s.session.sessionState with
  | .unsynced => if code = codeHello then acceptCommand seq code p s else answerSequence seq code s
  | .synced =>
    match repeatOf seq s with
    | some a => fillSlot a true s
    | none =>
      if s.session.expected = some seq ∨ code = codeHello then acceptCommand seq code p s
      else answerSequence seq code s

/-- A unicast command taken (R135): stage 1 first. -/
def takeUnicast (seq code : Byte) (p : List Byte) (s : State) : State :=
  if s.reports.freeSlots = 0 then countDiscard seq s else sequenceStage seq code p (reserveSlot s)

/-! ### Broadcasts (R143) -/

/-- A broadcast dropped and counted. -/
def countRefusal (s : State) : State :=
  { s with session := { s.session with refusalTally := satSucc 255 s.session.refusalTally } }

/-- The broadcast is one that a unit may carry out: COMMIT NEXT or AT, or CLEAR_ALL, of the length that fits (R143). -/
def broadcastable (code : Byte) (p : List Byte) : Bool :=
  lengthFits code p && (code = codeClearAll || (code = codeCommit && decide (byteAt p 0 < 2)))

/-- A broadcast command taken: carried out, or dropped and counted (R143). -/
def takeBroadcast (code : Byte) (p : List Byte) (s : State) : State :=
  if broadcastable code p then
    let r := dispatch code p s
    if r.status = .ok then r.state else countRefusal s
  else countRefusal s

/-! ### Taking a command -/

/-- A command the filter hands on, in its PACKET_END event (R134). -/
def handOver (how : Addressing) (seq code : Byte) (p : List Byte) (s : State) : State :=
  match how with
  | .unicast => takeUnicast seq code p s
  | .broadcast => takeBroadcast code p s

/-- A command can reach the session: symbols are taken, and the unit is addressed (R117 to R119). -/
def State.takesCommands (s : State) : Bool := s.receiving && s.addressed

/-- The session takes a host command (log entry 2); in a unit that no command can reach nothing happens (log entry 4). -/
def takeCommand (how : Addressing) (seq code : Byte) (p : List Byte) (s : State) : State :=
  if s.takesCommands then handOver how seq code p s else s

end Sys2Proof.Machine
end

