-- ==== Sys2Proof/Machine/Filter.lean ====
section
/-! DEFINITION. The packet filter (07_forward_channel_and_packet_handling.md): reception of a packet, the checks at its
PACKET_END, cut packets, and the hold queue's arrivals. The tracker has taken the symbol before the filter does. -/

namespace Sys2Proof.Machine

/-! ### Tallies and LINK events (R131) -/

/-- The LINK event of a count, with both tallies after it (R131). -/
def raiseLink (cause : LinkCause) (s : State) : State :=
  raise (.link ⟨cause, s.filter.crcTally, s.filter.truncTally, s.tracker.frameCounter⟩) s

/-- A packet counted as truncated (R123, R124, R127, R132). -/
def countTruncated (s : State) : State :=
  raiseLink .truncated { s with filter := { s.filter with truncTally := satSucc 65535 s.filter.truncTally } }

/-- A CRC mismatch counted (R125). -/
def countCrc (s : State) : State :=
  raiseLink .crc { s with filter := { s.filter with crcTally := satSucc 65535 s.filter.crcTally } }

/-! ### The open packet -/

/-- No packet open: the byte count and the kind are those of no packet (log entry 18). -/
def closePacket (s : State) : State :=
  { s with filter := { s.filter with reception := .none, byteCount := 0, kindKnown := .no } }

/-- Every held symbol released unchanged. -/
def releaseAll (s : State) : State :=
  { s with filter := { s.filter with holdQueue := releaseHeld s.filter.holdQueue } }

/-- The open packet ended by a raster symbol, a PACKET_START or link down: a held packet is released and counted, an
over-long one counted, an unexamined one not counted (R122, R123, R127, R132). -/
def endOpenPacket (s : State) : State :=
  match s.filter.reception with
  | .none => s
  | .holding => countTruncated (closePacket (releaseAll s))
  | .overlong => countTruncated (closePacket s)
  | .unexamined => closePacket s

/-- A raster symbol reaches the filter: it ends the open packet and joins the hold queue behind it, never held (R121, R127,
R129). -/
def filterRaster (x : FwdSymbol) (s : State) : State := join x false (endOpenPacket s)

/-! ### Packet symbols (R121 to R123, R128) -/

/-- A packet opened in a reception state. -/
def openPacket (r : Reception) (s : State) : State :=
  { s with filter := { s.filter with reception := r, byteCount := 0, kindKnown := .no } }

/-- A PACKET_START: it ends the packet that is open, and opens one in HOLDING, or in UNEXAMINED inside a line (R128) or in an
unaddressed unit (R119). -/
def filterPacketStart (s : State) : State :=
  let s' := endOpenPacket s
  if s'.tracker.inLine || !s'.addressed then join .packetStart false (openPacket .unexamined s')
  else join .packetStart true (openPacket .holding s')

/-- A PACKET_BYTE of a packet in HOLDING: the 257th moves it to OVERLONG (R123), the first is the kind byte (R122, R163). -/
def holdByte (b : Byte) (s : State) : State :=
  if Config.packetBytes ≤ s.filter.byteCount then
    let s' := releaseAll s
    join (.packetByte b) false
      { s' with filter := { s'.filter with reception := .overlong, byteCount := Config.packetBytes + 1, kindKnown := .no } }
  else
    let s' := join (.packetByte b) true { s with filter := { s.filter with byteCount := s.filter.byteCount + 1 } }
    if s.filter.byteCount = 0 then
      if b = kindCommand then { s' with filter := { s'.filter with kindKnown := .command } }
      else
        let u := releaseAll s'
        { u with filter := { u.filter with reception := .unexamined, byteCount := 0, kindKnown := .other } }
    else s'

/-- A PACKET_BYTE (R121). -/
def filterPacketByte (b : Byte) (s : State) : State :=
  match s.filter.reception with
  | .none => join (.packetByte b) false s
  | .holding => holdByte b s
  | .overlong => join (.packetByte b) false s
  | .unexamined => join (.packetByte b) false s

/-- The own-addressed packet replaced downstream by IDLE symbols (R126). -/
def removeHeld (s : State) : State :=
  { s with filter := { s.filter with holdQueue := idleHeld s.filter.holdQueue } }

/-- The PACKET_END of a packet in HOLDING: length, CRC, destination, in that order (R124 to R126). A good packet for this
unit is removed and taken, a good broadcast is released and taken, any other packet is released. -/
def decidePacket (s : State) : State :=
  let bytes := heldBytes s.filter.holdQueue
  let s' := closePacket (join .packetEnd true s)
  match checkPacket bytes with
  | .badLength => countTruncated (releaseAll s')
  | .badCrc => countCrc (releaseAll s')
  | .good dest seq code p =>
    if dest = 15 then handOver .broadcast seq code p (releaseAll s')
    else if dest = s.unitAddress then handOver .unicast seq code p (removeHeld s')
    else releaseAll s'

/-- A PACKET_END (R121). -/
def filterPacketEnd (s : State) : State :=
  match s.filter.reception with
  | .none => join .packetEnd false s
  | .holding => decidePacket s
  | .overlong => countTruncated (closePacket (join .packetEnd false s))
  | .unexamined => closePacket (join .packetEnd false s)

/-- An IDLE: absorbed while the hold queue holds a symbol, else it joins and passes (R130). -/
def filterIdle (s : State) : State := if s.filter.holdQueue = [] then join .idle false s else s

end Sys2Proof.Machine
end

