-- ==== Sys2Proof/Machine/Reports.lean ====
section
/-! DEFINITION. The report unit's return lane (09_reports_and_the_return_lane.md): the relay queue, the arbiter, the
transmitter and the lane states. -/

namespace Sys2Proof.Machine

/-! ### The transmitter (R157 to R159) -/

/-- The packet of a transmission leaves its queue: the transmitter is free, and a report's slot freed may let a pending event be
built (R153, R158). -/
def ReportUnit.finish (r : ReportUnit) (source : BitVec 4) : QueueName → ReportUnit
  | .report => ({ r with queue := r.queue.tail, transmitter := .free }).build source
  | .relay => { r with relay := r.relay.tail, transmitter := .free }

/-- The end of a transmission: the packet has been sent and leaves its queue, and the arbiter decides again (R157, R158). -/
def endTransmission (s : State) : State :=
  match s.retOutUp, s.reports.transmitter with
  | true, .sending q =>
    match s.reports.headOf q with
    | none => s
    | some b =>
      startTransmission { s with retSent := s.retSent ++ [b], reports := s.reports.finish s.unitAddress q }
  | _, _ => s

/-- The output lane reported DOWN: a transmission under way is abandoned, its packet kept (R159). -/
def ReportUnit.loseOutput (r : ReportUnit) : ReportUnit :=
  { r with
    outputLaneUp := false
    transmitter := match r.transmitter with
      | .free => .free
      | .sending q => .abandoned q
      | .abandoned q => .abandoned q }

/-! ### The relay queue (R155, R156, R160) -/

/-- A packet is being received: the place at the tail is not whole. -/
def receivingRelay (l : List RelayPlace) : Bool :=
  match l.getLast? with
  | none => false
  | some p => !p.whole

/-- A PACKET_START at RET_IN: it takes the place of a packet being received, else a place at the tail when fewer than 4 are
taken, else it is not received (R155). -/
def relayStart (l : List RelayPlace) : List RelayPlace :=
  if receivingRelay l then l.dropLast ++ [⟨[], false⟩]
  else if l.length < Config.relayPlaces then l ++ [⟨[], false⟩]
  else l

/-- A PACKET_BYTE at RET_IN: it fills the place being received; the 65th discards the packet; with no packet open it is passed
over (R155). -/
def relayByte (b : Byte) (l : List RelayPlace) : List RelayPlace :=
  match l.getLast? with
  | none => l
  | some p =>
    if p.whole then l
    else if Config.relayBytes ≤ p.bytes.length then l.dropLast
    else l.dropLast ++ [⟨p.bytes ++ [b], false⟩]

/-- A PACKET_END at RET_IN: the packet is received whole, or discarded with fewer than 8 bytes; with no packet open it is
passed over (R155). -/
def relayEnd (l : List RelayPlace) : List RelayPlace :=
  match l.getLast? with
  | none => l
  | some p =>
    if p.whole then l
    else if p.bytes.length < 8 then l.dropLast
    else l.dropLast ++ [⟨p.bytes, true⟩]

/-- A change of the relay queue at RET_IN while the input lane is UP and RESET_N released (R149, R160). -/
def onRelay (f : List RelayPlace → List RelayPlace) (s : State) : State :=
  if !s.resetAsserted && s.reports.inputLaneUp then { s with reports := { s.reports with relay := f s.reports.relay } } else s

/-- A packet received whole at the head of the relay queue is one of the events at which the arbiter decides (R157). -/
def endRelayPacket (s : State) : State :=
  let s' := onRelay relayEnd s
  if s.reports.relayHead.isNone && s'.reports.relayHead.isSome then startTransmission s' else s'

/-- The packet being received discarded (R160). -/
def relayDrop (l : List RelayPlace) : List RelayPlace := if receivingRelay l then l.dropLast else l

end Sys2Proof.Machine
end

