-- ==== Sys2Proof/Machine/Tracker.lean ====
section
/-! DEFINITION. The raster tracker (06_raster_tracking.md): the position, the measuring of a frame, the checks of a locked
frame, and the raster state. -/

namespace Sys2Proof.Machine

/-- The position moved by a symbol (R100); lines begun and pixels in line stop at 4097 (R98). -/
def Tracker.move (x : FwdSymbol) (t : Tracker) : Tracker :=
  match x with
  | .frameStart => { t with inFrame := true, inLine := false, linesBegun := 0, pixelsInLine := 0 }
  | .lineStart => { t with inLine := true, linesBegun := satSucc Config.countStop t.linesBegun, pixelsInLine := 0 }
  | .pixel _ => if t.inLine then { t with pixelsInLine := satSucc Config.countStop t.pixelsInLine } else t
  | .lineEnd => if t.inLine then { t with inLine := false } else t
  | .frameEnd => if t.inFrame then { t with inFrame := false, inLine := false } else t
  | .packetStart => t
  | .packetByte _ => t
  | .packetEnd => t
  | .idle => t

/-! ### Acquiring a geometry (R104, R105) -/

/-- The symbol fails a test of regularity inside a frame (R104). -/
def Tracker.irregularAt (x : FwdSymbol) (t : Tracker) : Bool :=
  match x with
  | .frameStart => false
  | .lineStart => t.inLine || decide (4096 ≤ t.linesBegun)
  | .pixel _ => !t.inLine || decide (4096 ≤ t.pixelsInLine)
  | .lineEnd =>
    !t.inLine || decide (t.pixelsInLine < 16) || decide (4096 < t.pixelsInLine) ||
      match t.lengthMark with
      | none => false
      | some m => t.pixelsInLine != m
  | .frameEnd => t.inLine || decide (t.linesBegun < 8)
  | .packetStart => t.inLine
  | .packetByte _ => t.inLine
  | .packetEnd => t.inLine
  | .idle => false

/-- A raster symbol, as against a packet symbol or IDLE. -/
def FwdSymbol.isRaster : FwdSymbol → Bool
  | .frameStart | .lineStart | .pixel _ | .lineEnd | .frameEnd => true
  | .packetStart | .packetByte _ | .packetEnd | .idle => false

/-- What a symbol other than FRAME_START does to the measuring of a frame in ACQUIRING, before the position moves. Inside a
frame: the irregular mark at the first failed test, and the length mark at the first LINE_END that passes. Outside a frame:
a stray raster symbol sets the match count to 0 (R104). -/
def Tracker.measure (x : FwdSymbol) (t : Tracker) : Tracker :=
  if t.inFrame then
    if t.irregular then t
    else if t.irregularAt x then { t with irregular := true }
    else if x = .lineEnd ∧ t.lengthMark = none then { t with lengthMark := some t.pixelsInLine }
    else t
  else if x.isRaster then { t with matchCount := 0 }
  else t

/-- The end of a frame measured in ACQUIRING: the candidate geometry, the match count, and the lock when the count reaches 2
(R105). -/
def Tracker.endMeasured (t : Tracker) : Tracker :=
  match t.irregular, t.lengthMark with
  | false, some w =>
    let g : Geometry := ⟨w, t.linesBegun⟩
    if t.candidate = some g then
      if 2 ≤ t.matchCount + 1 then { t with rasterState := .locked, locked := some g, matchCount := 2 }
      else { t with matchCount := t.matchCount + 1 }
    else { t with candidate := some g, matchCount := 1 }
  | _, _ => { t with matchCount := 0 }

/-! ### Checking a locked frame (R107 to R109) -/

/-- The fault a symbol is in LOCKED: the first matching row of R107. -/
def Tracker.faultAt (x : FwdSymbol) (t : Tracker) : Option FaultKind :=
  let W := (t.locked.map Geometry.w).getD 0
  let H := (t.locked.map Geometry.h).getD 0
  match x with
  | .frameStart => if t.inFrame then some .frameRestart else none
  | .packetStart => if t.inLine then some .packetInLine else none
  | .packetByte _ => if t.inLine then some .structural else none
  | .packetEnd => if t.inLine then some .structural else none
  | .lineStart =>
    if t.inLine then some .structural
    else if !t.inFrame then some .structural
    else if H ≤ t.linesBegun then some .extraLine
    else none
  | .pixel _ =>
    if !t.inLine then some .structural
    else if W ≤ t.pixelsInLine then some .longLine
    else none
  | .lineEnd =>
    if !t.inLine then some .structural
    else if t.pixelsInLine < W then some .shortLine
    else none
  | .frameEnd =>
    if !t.inFrame then some .structural
    else if t.inLine then some .structural
    else if t.linesBegun < H then some .shortFrame
    else none
  | .idle => none

/-- The fault record of a fault found at a symbol, from the counter and position before it (R109). -/
def Tracker.recordFault (k : FaultKind) (t : Tracker) : Tracker :=
  { t with
    rasterState := .disrupted
    fault := some ⟨k, t.frameCounter, if t.inLine then t.linesBegun - 1 else t.linesBegun⟩ }

/-- Steps 1 to 3 of R108: DISRUPTED, the fault record, and the compositor told. -/
def takeFault (k : FaultKind) (s : State) : State := stopCompositing { s with tracker := s.tracker.recordFault k }

/-! ### Taking a symbol -/

/-- The tracker takes a symbol other than FRAME_START, by the raster state it finds (R100, R103 to R110). -/
def trackSymbol (x : FwdSymbol) (s : State) : State :=
  match s.tracker.rasterState with
  | .noSignal => { s with tracker := s.tracker.move x }
  | .disrupted => { s with tracker := s.tracker.move x }
  | .acquiring =>
    let measured := (s.tracker.measure x).move x
    if x = .frameEnd ∧ s.tracker.inFrame then
      let t := measured.endMeasured
      let s' := { s with tracker := t }
      if t.rasterState = .locked then raiseRaster s' else s'
    else { s with tracker := measured }
  | .locked =>
    match s.tracker.faultAt x with
    | none => { s with tracker := s.tracker.move x }
    | some k =>
      let s' := takeFault k s
      raiseRaster { s' with tracker := s'.tracker.move x }

/-- ACQUIRING entered from DISRUPTED: the candidate is the geometry lost, with a count of 1 (R110). -/
def Tracker.reacquire (t : Tracker) : Tracker :=
  { t with rasterState := .acquiring, candidate := t.locked, matchCount := 1, locked := none }

/-- The new frame a FRAME_START begins: the counter incremented (R101), the position (R100), and both marks reset (R102). -/
def Tracker.beginFrame (t : Tracker) : Tracker :=
  { t.move .frameStart with frameCounter := t.frameCounter + 1, lengthMark := none, irregular := false }

/-- The tracker takes a FRAME_START (R102, R110, R111). Both events of a FRAME_RESTART carry the counter after the
increment (R113). -/
def trackFrameStart (s : State) : State :=
  match s.tracker.rasterState with
  | .noSignal =>
    raiseRaster { s with tracker :=
      { s.tracker.beginFrame with rasterState := .acquiring, candidate := none, matchCount := 0 } }
  | .acquiring =>
    let t := s.tracker.beginFrame
    { s with tracker := if s.tracker.inFrame then { t with matchCount := 0 } else t }
  | .disrupted => raiseRaster { s with tracker := s.tracker.reacquire.beginFrame }
  | .locked =>
    match s.tracker.faultAt .frameStart with
    | none => { s with tracker := s.tracker.beginFrame }
    | some k =>
      let s1 := takeFault k s
      let s2 := raiseRaster { s1 with tracker := s1.tracker.beginFrame }
      raiseRaster { s2 with tracker := s2.tracker.reacquire }

/-- Link down on the forward channel reaches the tracker: NO_SIGNAL and the frame in progress abandoned, the frame counter and the
fault record kept (R112). -/
def Tracker.loseSignal (t : Tracker) : Tracker :=
  { Tracker.reset with frameCounter := t.frameCounter, fault := t.fault }

/-- The tracker's part of a link down, with its RASTER event when the state was not NO_SIGNAL already (R112). -/
def trackLinkDown (s : State) : State :=
  let s' := { s with tracker := s.tracker.loseSignal }
  if s.tracker.rasterState = .noSignal then s' else raiseRaster s'

end Sys2Proof.Machine
end

