-- ==== Sys2Proof/Machine/Link.lean ====
section
/-! DEFINITION. The raster and packet symbols, the forward link, the drains of FWD_OUT, and reset: one meaning per row. -/

namespace Sys2Proof.Machine

abbrev Result := Host.Outcome State Fault Refusal

/-! ### Raster symbols -/

/-- FRAME_START (R102): the tracker, then the generation controller, then the filter, then the compositor (log entry 13). -/
def takeFrameStart (s : State) : State :=
  decideCompositing (filterRaster .frameStart (applyIfDue (trackFrameStart s)))

def execFrameStart (s : State) : Result := .next (onSymbol takeFrameStart s)

/-- LINE_START (R100, R51): the candidate list is built on a composited frame. -/
def takeLineStart (s : State) : State := buildLine (filterRaster .lineStart (trackSymbol .lineStart s))

def execLineStart (s : State) : Result := .next (onSymbol takeLineStart s)

/-- PIXEL (R59): the value is computed at the arrival, with the column the tracker found and the compositor's state after
the tracker's findings, and travels with the pixel (R129). -/
def takePixel (c : Colour) (s : State) : State :=
  let s' := trackSymbol (.pixel c) s
  filterRaster (.pixel (outgoingPixel s' s.tracker.pixelsInLine c)) s'

def execPixel (c0 c1 c2 : Nat) (s : State) : Result := .next (onSymbol (takePixel ⟨c0, c1, c2⟩) s)

/-- LINE_END (R100, R51): the candidate list is emptied. -/
def takeLineEnd (s : State) : State := emptyCandidates (filterRaster .lineEnd (trackSymbol .lineEnd s))

def execLineEnd (s : State) : Result := .next (onSymbol takeLineEnd s)

/-- FRAME_END (R105, R65): the end of a composited frame latches its summary. -/
def takeFrameEnd (s : State) : State := endCompositedFrame (filterRaster .frameEnd (trackSymbol .frameEnd s))

def execFrameEnd (s : State) : Result := .next (onSymbol takeFrameEnd s)

/-! ### Packet symbols and IDLE -/

/-- PACKET_START (R121). -/
def execPacketStart (s : State) : Result := .next (onSymbol (fun u => filterPacketStart (trackSymbol .packetStart u)) s)

/-- PACKET_BYTE (R121). -/
def execPacketByte (b : Byte) (s : State) : Result :=
  .next (onSymbol (fun u => filterPacketByte b (trackSymbol (.packetByte b) u)) s)

/-- PACKET_END (R124 to R126): the command of a good packet is taken in this event. -/
def execPacketEnd (s : State) : Result := .next (onSymbol (fun u => filterPacketEnd (trackSymbol .packetEnd u)) s)

/-- IDLE (R130). -/
def execIdle (s : State) : Result := .next (onSymbol (fun u => filterIdle (trackSymbol .idle u)) s)

/-! ### The forward link and the drains of FWD_OUT (R117, R118, R132) -/

/-- FWD_OUT is to present DOWN once every symbol waiting in the hold queue has been sent: the symbols behind the drains
already under way make a drain of their own; with nothing to send the output presents DOWN at once (R117, log entry 7). -/
def beginDrain (s : State) : State :=
  let waiting := s.filter.holdQueue.length - s.drains.sum
  if 0 < waiting then { s with drains := s.drains ++ [waiting] }
  else if s.drains = [] ∧ s.fwdOutUp then presentDown s
  else s

/-- The first `n` symbols of the hold queue sent in order. -/
def sendFirst (n : Nat) (s : State) : State :=
  { s with
    fwdSent := s.fwdSent ++ (s.filter.holdQueue.take n).map fun e => .symbol e.symbol
    filter := { s.filter with holdQueue := s.filter.holdQueue.drop n } }

/-- DRAIN_END (R117): what is left of the drain leaves, its last symbol with it, and the output presents DOWN. -/
def endDrain (s : State) : State :=
  match s.drains with
  | [] => s
  | n :: rest => finishDrain rest (sendFirst n s)

def execDrainEnd (s : State) : Result := .next (endDrain s)

/-- FORWARD_LINK_DOWN (R117): the tracker (R112), the compositor (R47, R66), the filter (R132), in the order R117 names them, and
then the drain. -/
def loseForwardLink (s : State) : State :=
  beginDrain { endOpenPacket (stopCompositing (trackLinkDown s)) with fwdInUp := false }

/-- FORWARD_LINK_DOWN: one that finds FWD_IN already DOWN changes nothing (log entry 4), and one that arrives while RESET_N is
asserted changes nothing either, the link state of the receiver included (log entry 23). -/
def execForwardLinkDown (s : State) : Result := .next (if s.receiving then loseForwardLink s else s)

/-- FORWARD_LINK_UP (R117): the output presents UP, after the drain when one is under way. -/
def gainForwardLink (s : State) : State :=
  let s' := { s with fwdInUp := true }
  if s.drains = [] then presentUp s' else s'

/-- FORWARD_LINK_UP: one that finds FWD_IN already UP changes nothing (log entry 4), and one that arrives while RESET_N is asserted
changes nothing either, the link state of the receiver included (log entry 23). -/
def execForwardLinkUp (s : State) : Result :=
  .next (if !s.resetAsserted && !s.fwdInUp then gainForwardLink s else s)

/-! ### Reset (R118, R119) -/

/-- RESET_ASSERT (R118): the held symbols of an open packet are released unchanged, the hold queue drains, and then FWD_OUT
presents DOWN. Every block keeps its values until the release. -/
def assertReset (s : State) : State :=
  beginDrain { closePacket (releaseAll s) with resetAsserted := true }

def execResetAssert (s : State) : Result := .next (if s.resetAsserted then s else assertReset s)

/-- Every block at its hard reset values, the address sampled from the straps, the links and lanes DOWN. What the outputs
have sent, the waiting commands and the level of ROOM from upstream are not the unit's to reset (log entries 11, 15). RESET_N
stands released afterwards, also after a POWER_UP that finds it asserted (log entry 26). -/
def hardReset (straps : BitVec 4) (s : State) : State :=
  { State.reset with
    unitAddress := straps
    upstreamRoom := s.upstreamRoom
    fwdSent := s.fwdSent
    retSent := s.retSent
    pending := s.pending }

/-- FWD_OUT presents DOWN if it does not already. -/
def ensureDown (s : State) : State := if s.fwdOutUp then presentDown s else s

/-- RESET_RELEASE (R118): hard reset values, and the address of the straps. Symbols of the hold queue that have not left by then
are sent first, in order (log entry 8). -/
def execResetRelease (straps : BitVec 4) (s : State) : Result :=
  .next (hardReset straps (ensureDown (sendFirst s.filter.holdQueue.length s)))

/-- POWER_UP (R118): a hard reset; nothing waited in a unit without power (log entry 9). The unit is out of
reset afterwards, whatever RESET_N was before: DESIGN CHOICE (log entry 26). -/
def execPowerUp (straps : BitVec 4) (s : State) : Result := .next (hardReset straps (ensureDown s))

end Sys2Proof.Machine
end

