-- ==== Sys2Proof/Machine/Commands.lean ====
section
/-! DEFINITION. One meaning per row: the host commands, each the session's taking of its command code with the payload
carried (R134, R141; the effect is the `command...` definition `dispatch` runs for that code), and the return-lane events. -/

namespace Sys2Proof.Machine

/-! ### Host commands -/

/-- HELLO (R145). -/
def execHello (how : Addressing) (seq : Byte) (payload : List Byte) (s : State) : Result :=
  .next (takeCommand how seq codeHello payload s)

/-- STATUS (R146). -/
def execStatus (how : Addressing) (seq : Byte) (payload : List Byte) (s : State) : Result :=
  .next (takeCommand how seq codeStatus payload s)

/-- SET_EVENTS (R147). -/
def execSetEvents (how : Addressing) (seq : Byte) (payload : List Byte) (s : State) : Result :=
  .next (takeCommand how seq codeSetEvents payload s)

/-- DEFINE_OBJECT (R9). -/
def execDefineObject (how : Addressing) (seq : Byte) (payload : List Byte) (s : State) : Result :=
  .next (takeCommand how seq codeDefineObject payload s)

/-- MOVE_OBJECT (R10). -/
def execMoveObject (how : Addressing) (seq : Byte) (payload : List Byte) (s : State) : Result :=
  .next (takeCommand how seq codeMoveObject payload s)

/-- SET_OBJECT_ATTR (R11, R12). -/
def execSetObjectAttr (how : Addressing) (seq : Byte) (payload : List Byte) (s : State) : Result :=
  .next (takeCommand how seq codeSetObjectAttr payload s)

/-- DELETE_OBJECT (R15). -/
def execDeleteObject (how : Addressing) (seq : Byte) (payload : List Byte) (s : State) : Result :=
  .next (takeCommand how seq codeDeleteObject payload s)

/-- READ_OBJECT (R16). -/
def execReadObject (how : Addressing) (seq : Byte) (payload : List Byte) (s : State) : Result :=
  .next (takeCommand how seq codeReadObject payload s)

/-- CANCEL_COMMIT (R29). -/
def execCancelCommit (how : Addressing) (seq : Byte) (payload : List Byte) (s : State) : Result :=
  .next (takeCommand how seq codeCancelCommit payload s)

/-- SET_MODE (R39). -/
def execSetMode (how : Addressing) (seq : Byte) (payload : List Byte) (s : State) : Result :=
  .next (takeCommand how seq codeSetMode payload s)

/-- DISCARD (R40, R41). -/
def execDiscard (how : Addressing) (seq : Byte) (payload : List Byte) (s : State) : Result :=
  .next (takeCommand how seq codeDiscard payload s)

/-- CLEAR_ALL (R42, R43). -/
def execClearAll (how : Addressing) (seq : Byte) (payload : List Byte) (s : State) : Result :=
  .next (takeCommand how seq codeClearAll payload s)

/-- CREATE_IMAGE (R74, R75). -/
def execCreateImage (how : Addressing) (seq : Byte) (payload : List Byte) (s : State) : Result :=
  .next (takeCommand how seq codeCreateImage payload s)

/-- LOAD_IMAGE (R76, R77). -/
def execLoadImage (how : Addressing) (seq : Byte) (payload : List Byte) (s : State) : Result :=
  .next (takeCommand how seq codeLoadImage payload s)

/-- RESTART_IMAGE (R79). -/
def execRestartImage (how : Addressing) (seq : Byte) (payload : List Byte) (s : State) : Result :=
  .next (takeCommand how seq codeRestartImage payload s)

/-- RELEASE_IMAGE (R80, R81). -/
def execReleaseImage (how : Addressing) (seq : Byte) (payload : List Byte) (s : State) : Result :=
  .next (takeCommand how seq codeReleaseImage payload s)

/-- IMAGE_INFO (R84). -/
def execImageInfo (how : Addressing) (seq : Byte) (payload : List Byte) (s : State) : Result :=
  .next (takeCommand how seq codeImageInfo payload s)

/-- WRITE_PALETTE (R90 to R92). -/
def execWritePalette (how : Addressing) (seq : Byte) (payload : List Byte) (s : State) : Result :=
  .next (takeCommand how seq codeWritePalette payload s)

/-- READ_PALETTE (R96). -/
def execReadPalette (how : Addressing) (seq : Byte) (payload : List Byte) (s : State) : Result :=
  .next (takeCommand how seq codeReadPalette payload s)

/-- COMMIT with mode NEXT (R26): the payload is the mode byte 0 and what follows it. -/
def execCommitNext (how : Addressing) (seq : Byte) (rest : List Byte) (s : State) : Result :=
  .next (takeCommand how seq codeCommit (0 :: rest) s)

/-- COMMIT with mode AT (R27): the payload is the mode byte 1 and what follows it. -/
def execCommitAt (how : Addressing) (seq : Byte) (rest : List Byte) (s : State) : Result :=
  .next (takeCommand how seq codeCommit (1 :: rest) s)

/-- COMMIT with mode NOW (R28): the payload is the mode byte 2 and what follows it. -/
def execCommitNow (how : Addressing) (seq : Byte) (rest : List Byte) (s : State) : Result :=
  .next (takeCommand how seq codeCommit (2 :: rest) s)

/-- COMMIT whose mode byte is none of NEXT, AT and NOW (R25, R143). -/
def execCommitOtherMode (how : Addressing) (seq : Byte) (payload : List Byte) (s : State) : Result :=
  .next (takeCommand how seq codeCommit payload s)

/-- A command code that the command table does not list (R141, R143). -/
def execUnknownCommandCode (how : Addressing) (seq code : Byte) (payload : List Byte) (s : State) : Result :=
  .next (takeCommand how seq code payload s)

/-! ### ROOM from upstream and the transmitter -/

/-- UPSTREAM_ROOM_ASSERTED: an event at which the arbiter decides (R157, R159). -/
def execUpstreamRoomAsserted (s : State) : Result := .next (startTransmission { s with upstreamRoom := true })

/-- UPSTREAM_ROOM_WITHDRAWN: a packet under way is sent whole (R158). -/
def execUpstreamRoomWithdrawn (s : State) : Result := .next { s with upstreamRoom := false }

/-- TRANSMISSION_START (R157, R159): the arbiter's decision as a command of its own; the events of R157 make it already (log
entry 12). -/
def execTransmissionStart (s : State) : Result := .next (startTransmission s)

/-- TRANSMISSION_END (R157, R158). -/
def execTransmissionEnd (s : State) : Result := .next (endTransmission s)

/-! ### RET_IN -/

/-- A PACKET_START at RET_IN (R155). -/
def execRelayPacketStart (s : State) : Result := .next (onRelay relayStart s)

/-- A PACKET_BYTE at RET_IN (R155). -/
def execRelayPacketByte (b : Byte) (s : State) : Result := .next (onRelay (relayByte b) s)

/-- A PACKET_END at RET_IN (R155, R157). -/
def execRelayPacketEnd (s : State) : Result := .next (endRelayPacket s)

/-- An IDLE or stray symbol at RET_IN is passed over (R155). -/
def execRelayIdle (s : State) : Result := .next s

/-! ### Lane states (R159, R160) -/

/-- RET_OUT's channel reports link down (R159). -/
def execReturnOutputLinkDown (s : State) : Result :=
  .next (if s.resetAsserted then s else { s with reports := s.reports.loseOutput })

/-- RET_OUT's channel regains alignment: an event at which the arbiter decides, an abandoned packet ahead of any choice (R157,
R159). -/
def execReturnOutputLinkUp (s : State) : Result :=
  .next (if s.resetAsserted then s
    else startTransmission { s with reports := { s.reports with outputLaneUp := true } })

/-- RET_IN's channel reports link down: the packet being received is discarded (R160). -/
def execReturnInputLinkDown (s : State) : Result :=
  .next (if s.resetAsserted then s
    else { s with reports := { s.reports with inputLaneUp := false, relay := relayDrop s.reports.relay } })

/-- RET_IN's channel regains alignment: reception begins at the next PACKET_START (R160). -/
def execReturnInputLinkUp (s : State) : Result :=
  .next (if s.resetAsserted then s else { s with reports := { s.reports with inputLaneUp := true } })

end Sys2Proof.Machine
end

