-- ==== Sys2Proof/Machine/Dispatch.lean ====
section
/-! DEFINITION. exec: one arm per row of spec/opcode_table.json. -/

namespace Sys2Proof.Machine

def exec (i : Instr) (s : State) : Host.Outcome State Fault Refusal :=
  match i with
  | .frameStart => Sys2Proof.Machine.execFrameStart s
  | .lineStart => Sys2Proof.Machine.execLineStart s
  | .pixel c0 c1 c2 => Sys2Proof.Machine.execPixel c0 c1 c2 s
  | .lineEnd => Sys2Proof.Machine.execLineEnd s
  | .frameEnd => Sys2Proof.Machine.execFrameEnd s
  | .packetStart => Sys2Proof.Machine.execPacketStart s
  | .packetByte b => Sys2Proof.Machine.execPacketByte b s
  | .packetEnd => Sys2Proof.Machine.execPacketEnd s
  | .idle => Sys2Proof.Machine.execIdle s
  | .forwardLinkDown => Sys2Proof.Machine.execForwardLinkDown s
  | .forwardLinkUp => Sys2Proof.Machine.execForwardLinkUp s
  | .drainEnd => Sys2Proof.Machine.execDrainEnd s
  | .resetAssert => Sys2Proof.Machine.execResetAssert s
  | .resetRelease straps => Sys2Proof.Machine.execResetRelease straps s
  | .powerUp straps => Sys2Proof.Machine.execPowerUp straps s
  | .hello how seq payload => Sys2Proof.Machine.execHello how seq payload s
  | .status how seq payload => Sys2Proof.Machine.execStatus how seq payload s
  | .setEvents how seq payload => Sys2Proof.Machine.execSetEvents how seq payload s
  | .defineObject how seq payload => Sys2Proof.Machine.execDefineObject how seq payload s
  | .moveObject how seq payload => Sys2Proof.Machine.execMoveObject how seq payload s
  | .setObjectAttr how seq payload => Sys2Proof.Machine.execSetObjectAttr how seq payload s
  | .deleteObject how seq payload => Sys2Proof.Machine.execDeleteObject how seq payload s
  | .readObject how seq payload => Sys2Proof.Machine.execReadObject how seq payload s
  | .commitNext how seq rest => Sys2Proof.Machine.execCommitNext how seq rest s
  | .commitAt how seq rest => Sys2Proof.Machine.execCommitAt how seq rest s
  | .commitNow how seq rest => Sys2Proof.Machine.execCommitNow how seq rest s
  | .cancelCommit how seq payload => Sys2Proof.Machine.execCancelCommit how seq payload s
  | .setMode how seq payload => Sys2Proof.Machine.execSetMode how seq payload s
  | .discard how seq payload => Sys2Proof.Machine.execDiscard how seq payload s
  | .clearAll how seq payload => Sys2Proof.Machine.execClearAll how seq payload s
  | .createImage how seq payload => Sys2Proof.Machine.execCreateImage how seq payload s
  | .loadImage how seq payload => Sys2Proof.Machine.execLoadImage how seq payload s
  | .restartImage how seq payload => Sys2Proof.Machine.execRestartImage how seq payload s
  | .releaseImage how seq payload => Sys2Proof.Machine.execReleaseImage how seq payload s
  | .imageInfo how seq payload => Sys2Proof.Machine.execImageInfo how seq payload s
  | .writePalette how seq payload => Sys2Proof.Machine.execWritePalette how seq payload s
  | .readPalette how seq payload => Sys2Proof.Machine.execReadPalette how seq payload s
  | .upstreamRoomAsserted => Sys2Proof.Machine.execUpstreamRoomAsserted s
  | .upstreamRoomWithdrawn => Sys2Proof.Machine.execUpstreamRoomWithdrawn s
  | .transmissionStart => Sys2Proof.Machine.execTransmissionStart s
  | .transmissionEnd => Sys2Proof.Machine.execTransmissionEnd s
  | .relayPacketStart => Sys2Proof.Machine.execRelayPacketStart s
  | .relayPacketByte b => Sys2Proof.Machine.execRelayPacketByte b s
  | .relayPacketEnd => Sys2Proof.Machine.execRelayPacketEnd s
  | .relayIdle => Sys2Proof.Machine.execRelayIdle s
  | .returnOutputLinkDown => Sys2Proof.Machine.execReturnOutputLinkDown s
  | .returnOutputLinkUp => Sys2Proof.Machine.execReturnOutputLinkUp s
  | .returnInputLinkDown => Sys2Proof.Machine.execReturnInputLinkDown s
  | .returnInputLinkUp => Sys2Proof.Machine.execReturnInputLinkUp s
  | .unknownCommandCode how seq code payload => Sys2Proof.Machine.execUnknownCommandCode how seq code payload s
  | .commitOtherMode how seq payload => Sys2Proof.Machine.execCommitOtherMode how seq payload s

end Sys2Proof.Machine
end

