-- ==== Sys2Proof/Safety.lean ====
section
/-! DEFINITION. What a legal state is, block by block: the laws the manual states over the state, as predicates. Claims that a
step keeps one of them, and that it holds after reset, are statements of Certificates. -/

namespace Sys2Proof.Machine

/-! ### Raster tracker -/

/-- A geometry the tracker locks to: 16 to 4096 pixels, 8 to 4096 lines (R98). -/
def Geometry.InRange (g : Geometry) : Prop := 16 ≤ g.w ∧ g.w ≤ 4096 ∧ 8 ≤ g.h ∧ g.h ≤ 4096

/-- The ranges and presences of R98, with what they rest on: the locked geometry is present in LOCKED and DISRUPTED alone, the
match count holds 2 there and stays below 2 elsewhere, the counts stop at 4097, NO_SIGNAL has no frame in progress, and a
frame that is still regular has at most 4096 lines. -/
structure Tracker.Legal (t : Tracker) : Prop where
  lockedPresent : t.locked.isSome = true ↔ t.rasterState = .locked ∨ t.rasterState = .disrupted
  lockedRange : ∀ g, t.locked = some g → g.InRange
  candidateRange : ∀ g, t.candidate = some g → g.InRange
  matchHolds : t.rasterState = .locked ∨ t.rasterState = .disrupted → t.matchCount = 2
  matchBelow : t.rasterState = .noSignal ∨ t.rasterState = .acquiring → t.matchCount < 2
  linesStop : t.linesBegun ≤ 4097
  pixelsStop : t.pixelsInLine ≤ 4097
  markRange : ∀ m, t.lengthMark = some m → 16 ≤ m ∧ m ≤ 4096
  lineBegun : t.inLine = true → 1 ≤ t.linesBegun
  noFrame : t.rasterState = .noSignal → t.inFrame = false
  regularLines : t.rasterState = .acquiring → t.inFrame = true → t.irregular = false → t.linesBegun ≤ 4096
  lockedLines : ∀ g, t.rasterState = .locked → t.locked = some g → t.linesBegun ≤ g.h
  faultLine : ∀ r, t.fault = some r → r.line ≤ 4096

/-! ### Packet filter -/

/-- The released symbols of a hold queue, and the held ones. -/
def releasedPart (q : List QueuedSymbol) : List QueuedSymbol := q.filter fun e => !e.held
def heldPart (q : List QueuedSymbol) : List QueuedSymbol := q.filter fun e => e.held

/-- R120 and R121: the held symbols stand behind the released ones and are exactly those of the packet in HOLDING, its
PACKET_START and its bytes, whose number the byte count gives; with a first byte read the kind is COMMAND; the queue holds at
most 258 symbols (R129); the tallies stop at 65535. -/
structure Filter.Legal (f : Filter) : Prop where
  order : f.holdQueue = releasedPart f.holdQueue ++ heldPart f.holdQueue
  held : f.reception = .holding →
    heldPart f.holdQueue = ⟨.packetStart, true⟩ :: (heldBytes f.holdQueue).map fun b => ⟨.packetByte b, true⟩
  bytes : f.reception = .holding → (heldBytes f.holdQueue).length = f.byteCount
  notHeld : f.reception ≠ .holding → heldPart f.holdQueue = []
  holdingCount : f.reception = .holding → f.byteCount ≤ 256
  kind : f.reception = .holding → 0 < f.byteCount →
    f.kindKnown = .command ∧ (heldBytes f.holdQueue).head? = some kindCommand
  countStop : f.byteCount ≤ 257
  length : f.holdQueue.length ≤ 258
  crcStop : f.crcTally ≤ 65535
  truncStop : f.truncTally ≤ 65535

/-! ### Command session -/

/-- R133: E is L + 1 and the cached acknowledgement is that of L in SYNCED, all three absent in UNSYNCED; the first discarded
sequence is present exactly while the discard tally is above 0; the tallies stop at 255. -/
structure Session.Legal (s : Session) : Prop where
  unsynced : s.sessionState = .unsynced → s.expected = none ∧ s.last = none ∧ s.cached = none
  synced : s.sessionState = .synced →
    ∃ l a, s.last = some l ∧ s.expected = some (l + 1) ∧ s.cached = some a ∧ a.seq = l
  first : s.firstDiscarded.isSome = true ↔ 0 < s.discardTally
  discardStop : s.discardTally ≤ 255
  refusalStop : s.refusalTally ≤ 255

/-! ### Object table -/

/-- A clip in its ranges, with x0 < x1 and y0 < y1 (R1). -/
def Clip.InRange (c : Clip) : Prop := c.x0 < c.x1 ∧ c.y0 < c.y1 ∧ c.x1 ≤ 4096 ∧ c.y1 ≤ 4096

/-- The fields of a DEFINED record in the ranges of R1. -/
structure ObjectFields.InRange (o : ObjectFields) : Prop where
  image : o.image < 128
  x : -1024 ≤ o.x ∧ o.x ≤ 4095
  y : -1024 ≤ o.y ∧ o.y ≤ 4095
  z : o.z < 256
  palette : o.palette < 8
  row : o.row < 16
  scaleX : 1 ≤ o.scaleX ∧ o.scaleX ≤ 4
  scaleY : 1 ≤ o.scaleY ∧ o.scaleY ≤ 4
  opacity : o.opacity ≤ 15
  anchor : ∀ a, o.anchor = some a → a < 64
  clip : ∀ c, o.clip = some c → c.InRange

/-- Every DEFINED record of both generations in range (R1). -/
def ObjectTable.RecordsInRange (t : ObjectTable) : Prop :=
  (∀ i o, t.stagedAt i = some o → o.InRange) ∧ ∀ i o, t.activeAt i = some o → o.fields.InRange

/-- The fields of an active record, as a lookup of the active generation. -/
def ObjectTable.activeFields (t : ObjectTable) (i : Nat) : Option ObjectFields := (t.activeAt i).map ActiveObject.fields

/-- R6 for one generation: from every DEFINED record the chain of anchors names DEFINED records alone and reaches a record
without an anchor after at most 3 links. -/
def ChainLaw (look : Nat → Option ObjectFields) : Prop := ∀ i o, look i = some o → rootWithin look 3 i = true

/-- R6. -/
def ObjectTable.AnchorLaw (t : ObjectTable) : Prop := ChainLaw t.stagedAt ∧ ChainLaw t.activeFields

/-! ### Image store -/

/-- The image of a handle. -/
def ImageStore.imageAt (st : ImageStore) (h : Nat) : Option Image := (st.entry h).image

/-- R5: every image a DEFINED staged record names is READY, every image a DEFINED active record names READY or RETIRING. -/
def State.NamedImagesComplete (s : State) : Prop :=
  (∀ i o, s.objects.stagedAt i = some o → ∃ im, s.images.imageAt o.image = some im ∧ im.phase = .ready) ∧
  (∀ i o, s.objects.activeAt i = some o →
    ∃ im, s.images.imageAt o.fields.image = some im ∧ (im.phase = .ready ∨ im.phase = .retiring))

/-- DEFINED staged records that name an image. -/
def ObjectTable.stagedNaming (t : ObjectTable) (h : Nat) : Nat :=
  t.staged.toList.countP fun r => r.any fun o => o.image == h

/-- DEFINED active records that name an image. -/
def ObjectTable.activeNaming (t : ObjectTable) (h : Nat) : Nat :=
  t.active.toList.countP fun r => r.any fun o => o.fields.image == h

/-- R73: both counts of every entry are the numbers of DEFINED records that name it. -/
def State.CountsExact (s : State) : Prop :=
  ∀ h, h < 128 → (s.images.entry h).stagedRefs = s.objects.stagedNaming h ∧
    (s.images.entry h).activeRefs = s.objects.activeNaming h

/-- How often a page number stands in the free page list and in the page maps together. -/
def ImageStore.pageUses (st : ImageStore) (p : PageNo) : Nat :=
  st.freePages.count p + (st.directory.toList.map fun e => e.pages.count p).sum

/-- R68: every page is in the free page list exactly once or in the page map of exactly one image, and nowhere else. -/
def ImageStore.PageLaw (st : ImageStore) : Prop := ∀ p : PageNo, st.pageUses p = 1

/-- The fields of a directory entry that is not FREE agree with one another (R69, R70): a shape in range, row length, size and page
count computed from it, and a cursor short of the size while LOADING and equal to it otherwise. -/
structure Image.Legal (im : Image) : Prop where
  shape : imageShapeInRange im.width im.height im.depth = true
  row : im.rowLength = rowLengthOf im.width im.depth
  size : im.size = im.rowLength * im.height
  pages : im.pageMap.length = pagesFor im.size
  loading : im.phase = .loading → im.cursor < im.size
  complete : im.phase ≠ .loading → im.cursor = im.size

/-- Every entry that is not FREE is legal. -/
def ImageStore.EntriesLegal (st : ImageStore) : Prop := ∀ h im, st.imageAt h = some im → im.Legal

/-! ### Palette unit -/

def Colour.InRange (c : Colour) : Prop := c.c0 ≤ 1023 ∧ c.c1 ≤ 1023 ∧ c.c2 ≤ 1023
def PaletteEntry.InRange (e : PaletteEntry) : Prop := e.colour.InRange ∧ e.alpha ≤ 15

/-- R86, R89: entries in range, at most 256 pending writes, at most one for any (palette, index). -/
structure PaletteUnit.Legal (u : PaletteUnit) : Prop where
  entries : ∀ p i, (u.entryAt p i).InRange
  writes : ∀ w ∈ u.writes, w.palette < 8 ∧ w.index < 256 ∧ w.entry.InRange
  length : u.writes.length ≤ 256
  once : u.writes.Pairwise fun a b => ¬(a.palette = b.palette ∧ a.index = b.index)

/-! ### Generation controller and compositor -/

/-- R20, R21: the fill colours in range. -/
def Generations.Legal (g : Generations) : Prop := g.stagedFill.InRange ∧ g.activeFill.InRange

/-- R46, R47, R51, R56: the flag is set only inside a frame, while LOCKED with an active mode other than PASS; the list is
empty while the flag is clear and outside a line; it holds at most 12 candidates that cost at most 2048 together. -/
structure State.CompositorLegal (s : State) : Prop where
  flag : s.compositor.compositing = true →
    s.tracker.rasterState = .locked ∧ s.generations.activeMode ≠ .pass ∧ s.tracker.inFrame = true
  clear : s.compositor.compositing = false → s.compositor.candidates = []
  between : s.tracker.inLine = false → s.compositor.candidates = []
  count : s.compositor.candidates.length ≤ 12
  budget : (s.compositor.candidates.map Candidate.cost).sum ≤ 2048

/-! ### Report unit -/

/-- R149, R150, R153, R155, R159: at most 8 reports, none left reserved; events wait only while at most one slot is free; at
most 4 relay places, of which the last alone may be in reception; a packet under way or abandoned stands at its queue's head;
nothing is sent on a lane that is DOWN. -/
structure ReportUnit.Legal (r : ReportUnit) : Prop where
  queue : r.queue.length ≤ 8
  filled : ∀ x ∈ r.queue, x ≠ .reserved
  waiting : r.events ≠ PendingEvents.empty → r.freeSlots ≤ 1
  relay : r.relay.length ≤ 4
  oneReceived : ∀ p ∈ r.relay.dropLast, p.whole = true
  places : ∀ p ∈ r.relay, p.bytes.length ≤ 64 ∧ (p.whole = true → 8 ≤ p.bytes.length)
  sending : ∀ q, r.transmitter = .sending q → (r.headOf q).isSome = true ∧ r.outputLaneUp = true
  abandoned : ∀ q, r.transmitter = .abandoned q → (r.headOf q).isSome = true

/-- The arbiter has nothing left to decide (R157, R159): on an UP lane with ROOM from upstream asserted the transmitter is free
only while neither queue has a packet that may be sent at its head, and it holds no abandoned packet. -/
def State.ArbiterSettled (s : State) : Prop :=
  s.retOutUp = true → s.upstreamRoom = true →
    (s.reports.transmitter = .free → s.reports.reportHead = none ∧ s.reports.relayHead = none) ∧
    ∀ q, s.reports.transmitter ≠ .abandoned q

/-! ### Across blocks -/

/-- A packet is held only outside a line and in an addressed unit (R119, R121, R128). -/
def State.HoldingLegal (s : State) : Prop :=
  s.filter.reception = .holding → s.tracker.inLine = false ∧ s.addressed = true

/-- FWD_OUT presents UP exactly while FWD_IN is UP with RESET_N released or a drain is under way (R117, R118); the drains count
released symbols at the head of the hold queue, and while no symbol can arrive they count all that is left in it. -/
structure State.OutputLegal (s : State) : Prop where
  up : s.drains = [] → s.fwdOutUp = s.receiving
  draining : s.drains ≠ [] → s.fwdOutUp = true
  counts : s.drains.sum ≤ (releasedPart s.filter.holdQueue).length
  settled : s.receiving = false → s.drains.sum = s.filter.holdQueue.length
  positive : ∀ n ∈ s.drains, 0 < n

/-- The laws of the forward channel together: each alone rests on the others. -/
def State.ChannelLegal (s : State) : Prop := s.filter.Legal ∧ s.HoldingLegal ∧ s.OutputLegal

/-- The laws that tie the object table to the image store together: each alone rests on the others (R1, R5, R73). -/
def State.ReferenceLegal (s : State) : Prop :=
  s.objects.RecordsInRange ∧ s.CountsExact ∧ s.NamedImagesComplete

/-- R68, R69 and the canonical form of the bytes, together. -/
def ImageStore.Legal (st : ImageStore) : Prop := st.PageLaw ∧ st.EntriesLegal ∧ Memory.wf st.memory = true

/-- R119: a unit strapped to 15 holds and counts no packet, and its tables, its session and its reports stay as hard reset
left them. -/
structure State.Dormant (s : State) : Prop where
  address : s.unitAddress = 15
  reception : s.filter.reception = .none ∨ s.filter.reception = .unexamined
  tallies : s.filter.crcTally = 0 ∧ s.filter.truncTally = 0
  session : s.session = Session.reset
  tables : s.objects = ObjectTable.reset ∧ s.generations = Generations.reset ∧ s.images = ImageStore.reset ∧
    s.palettes = PaletteUnit.reset
  reports : s.reports.queue = [] ∧ s.reports.events = PendingEvents.empty

/-! ### Two sides of the tables (R20, R21) -/

/-- The active generation and the active palettes (R21, R35). -/
def State.activeSide (s : State) : Vector (Option ActiveObject) 64 × OutputMode × Colour × Vector (Vector PaletteEntry 256) 8 :=
  (s.objects.active, s.generations.activeMode, s.generations.activeFill, s.palettes.active)

/-- The staged generation and the pending palette write list (R20, R38). -/
def State.stagedSide (s : State) : Vector (Option ObjectFields) 64 × OutputMode × Colour × List PaletteWrite :=
  (s.objects.staged, s.generations.stagedMode, s.generations.stagedFill, s.palettes.writes)

/-! ### How a command is taken and answered (R135, R142) -/

/-- A unicast command numbered `seq` is one the session accepts as the next: it reaches the session, a report slot is free,
and its number is E and not L. -/
abbrev State.Expects (s : State) (seq : Byte) : Prop :=
  s.takesCommands = true ∧ s.reports.queue.length < 8 ∧ (∀ x ∈ s.reports.queue, x ≠ .reserved) ∧
  s.session.sessionState = .synced ∧ s.session.expected = some seq ∧ s.session.last ≠ some seq

/-- The report slot that holds an acknowledgement built in this state. -/
def State.answer (s : State) (a : Ack) (isRepeat : Bool) : ReportSlot :=
  .filled (ackReport s.unitAddress a isRepeat s.session.discardTally s.session.firstDiscarded)

/-- The session after a command is accepted and answered by `a` (R135, R137, R139). -/
def Session.accepted (x : Session) (a : Ack) : Session :=
  { x with
    sessionState := .synced
    expected := some (a.seq + 1)
    last := some a.seq
    cached := some a
    discardTally := 0
    firstDiscarded := none }

/-- The state in which a command was accepted and answered by `a`, and nothing else happened but the arbiter's decision on an
answer that stands at the head of the report queue (R157). -/
def State.accepted (s : State) (a : Ack) : State :=
  reportFilled s.reports { s with
    session := s.session.accepted a
    reports := { s.reports with queue := s.reports.queue ++ [s.answer a false] } }

/-- The state in which an acknowledgement was queued that accepts no command (R138 to R140), with the arbiter's decision as
above. -/
def State.answered (s : State) (a : Ack) (isRepeat : Bool) : State :=
  reportFilled s.reports { s with
    session := { s.session with discardTally := 0, firstDiscarded := none }
    reports := { s.reports with queue := s.reports.queue ++ [s.answer a isRepeat] } }

/-! ### The events a command raises (R152) -/

/-- The report unit after these events were raised in turn, and nothing else. -/
def State.raised (s : State) (l : List Event) : ReportUnit := (l.foldl (fun u e => raise e u) s).reports

/-- The LINK event of an open packet that is cut, with the frame counter as it stands (R127, R131, R132); a packet in UNEXAMINED and
no packet raise none. -/
def State.cutEvents (s : State) (counter : Word16) : List Event :=
  if s.filter.reception = .holding ∨ s.filter.reception = .overlong then
    [.link ⟨.truncated, s.filter.crcTally, min 65535 (s.filter.truncTally + 1), counter⟩]
  else []

/-- The LINK event of the open packet that a symbol other than FRAME_START cuts: a PACKET_BYTE and an IDLE cut none. Of a PACKET_END
this is the event of a packet in OVERLONG, and not what is decided of a held one. -/
def State.cutBy (s : State) : Instr → List Event
  | .packetByte _ => []
  | .idle => []
  | _ => s.cutEvents s.tracker.frameCounter

/-- The summary a composited frame latches at its end (R65, R66). -/
def State.summary (s : State) (cutShort : Bool) : FrameSummary :=
  ⟨s.compositor.working.linesTruncated, s.compositor.working.firstLine, s.compositor.working.recordsOmitted,
    s.tracker.frameCounter, cutShort⟩

/-- The TRUNCATION event of a composited frame that ends with a line truncated (R65, R66). -/
def State.frameEvents (s : State) (cutShort : Bool) : List Event :=
  if s.compositor.compositing = true ∧ 0 < s.compositor.working.linesTruncated then [.truncation (s.summary cutShort)]
  else []

/-- The commit state calls for the apply at the next FRAME_START (R30). -/
abbrev State.ApplyDue (s : State) : Prop :=
  s.generations.commit = .armedNext ∨ s.generations.commit = .armedAt (s.tracker.frameCounter + 1)

/-- The COMMIT event of the apply a FRAME_START makes, with the counter it has incremented (R30, R33). -/
def State.commitEvents (s : State) : List Event :=
  if s.ApplyDue then
    [.commit ⟨s.generations.generation + 1, s.tracker.frameCounter + 1⟩]
  else []

/-- The kind of the last fault, as a RASTER event carries it (R113). -/
def State.lastFault (s : State) : Option FaultKind := s.tracker.fault.map FaultRecord.kind

/-! ### Answers of the blocks -/

/-- The result data of a COMMIT acknowledgement (R25, R167). -/
def commitReply (c : CommitState) (counter generation : Word16) (dirty : Bool) : List Byte :=
  [c.code] ++ be16 c.targetValue ++ be16 counter.toNat ++ be16 generation.toNat ++ [boolByte dirty]

/-- A staged reference count after a record's image changes from `old` to `new` (R8). -/
def refsAfter (old new : Option Nat) (h n : Nat) : Nat :=
  if old = new then n else if new = some h then n + 1 else if old = some h then n - 1 else n

/-- An entry of the image directory after a record's image changes from `old` to `new` (R8). -/
def ImageStore.entryAfterEdit (st : ImageStore) (old new : Option Nat) (h : Nat) : ImageEntry :=
  { st.entry h with stagedRefs := refsAfter old new h (st.entry h).stagedRefs }

/-! ### The apply (R31 to R33) -/

/-- What an apply makes of the tables: the staged side stands, the active side copies it, the pending writes are written,
the reference counts follow, and RETIRING images go FREE in ascending order of handle. -/
structure State.Applied (s t : State) : Prop where
  staged : t.objects.staged = s.objects.staged
  active : ∀ i, (t.objects.activeAt i).map ActiveObject.fields = s.objects.stagedAt i
  generations : t.generations =
    { s.generations with
      activeMode := s.generations.stagedMode
      activeFill := s.generations.stagedFill
      generation := s.generations.generation + 1
      commit := .idle
      stagedDirty := false }
  writes : t.palettes.writes = []
  palettes : ∀ p i, p < 8 → i < 256 → t.palettes.entryAt p i =
    match s.palettes.writes.find? (fun w => w.palette == p && w.index == i) with
    | some w => w.entry
    | none => s.palettes.entryAt p i
  memory : t.images.memory = s.images.memory
  entries : ∀ h, h < 128 → t.images.entry h =
    if (s.images.entry h).isRetiring = true ∧ (s.images.entry h).stagedRefs = 0 then ImageEntry.free
    else { s.images.entry h with activeRefs := (s.images.entry h).stagedRefs }
  pages : t.images.freePages = s.images.freePages ++ (List.range 128).flatMap fun h =>
    if (s.images.entry h).isRetiring = true ∧ (s.images.entry h).stagedRefs = 0 then (s.images.entry h).pages else []

/-- What the clearing of CLEAR_ALL makes of the tables (R42, R43): the staged side empty and every image's fate decided by its
state and its active count, FREE ones in ascending order of handle. The commit state is left open. -/
structure State.Cleared (s t : State) : Prop where
  staged : ∀ i, t.objects.stagedAt i = none
  active : t.objects.active = s.objects.active
  generations : t.generations =
    { s.generations with stagedMode := .pass, commit := t.generations.commit, stagedDirty := true }
  palettes : t.palettes = { s.palettes with writes := [] }
  memory : t.images.memory = s.images.memory
  entries : ∀ h, h < 128 → t.images.entry h =
    if (s.images.entry h).freedByClear = true then ImageEntry.free
    else if (s.images.entry h).retiredByClear = true then
      { s.images.entry h with
        stagedRefs := 0
        image := (s.images.entry h).image.map fun im => { im with phase := .retiring } }
    else { s.images.entry h with stagedRefs := 0 }
  pages : t.images.freePages = s.images.freePages ++ (List.range 128).flatMap fun h =>
    if (s.images.entry h).freedByClear = true then (s.images.entry h).pages else []

/-- The number of handles whose entry passes a test. -/
def ImageStore.handlesWith (st : ImageStore) (f : ImageEntry → Bool) : Nat :=
  ((List.range 128).filter fun h => f (st.entry h)).length

/-- R18: a root lies at its own x and y, an anchored record at its anchor's effective position plus its own, and every
coordinate lies within −4096 to 16380. -/
def ObjectTable.PositionsResolved (t : ObjectTable) : Prop :=
  ∀ i a, t.activeAt i = some a →
    (a.fields.anchor = none → a.ex = a.fields.x ∧ a.ey = a.fields.y) ∧
    (∀ k, a.fields.anchor = some k →
      ∃ b, t.activeAt k = some b ∧ a.ex = b.ex + a.fields.x ∧ a.ey = b.ey + a.fields.y) ∧
    (-4096 ≤ a.ex ∧ a.ex ≤ 16380) ∧ -4096 ≤ a.ey ∧ a.ey ≤ 16380

/-! ### The candidates of a line (R52 to R57) -/

/-- A candidate of line `y` on a raster `w` pixels wide: the active record it names is visible and meets the line, its span is
not empty, and its fields are those of R53, R55 and R60. -/
def State.IsCandidate (s : State) (w y : Nat) (c : Candidate) : Prop :=
  ∃ o im, s.objects.activeAt c.objectId = some o ∧ s.images.imageAt o.fields.image = some im ∧
    c.objectId < 64 ∧ o.fields.visible = true ∧
    (o.ey ≤ y ∧ (y : Int) < o.ey + im.height * o.fields.scaleY) ∧
    (∀ k, o.fields.clip = some k → k.y0 ≤ y ∧ y < k.y1) ∧
    (c.xa : Int) = max (max o.ex 0) ((o.fields.clip.map Clip.x0).getD 0) ∧
    (c.xb : Int) = min (min (o.ex + im.width * o.fields.scaleX) w) ((o.fields.clip.map Clip.x1).getD w) ∧
    c.xa < c.xb ∧
    (c.cost : Int) = ((c.xb : Int) - 1 - o.ex) / o.fields.scaleX - ((c.xa : Int) - o.ex) / o.fields.scaleX + 1 ∧
    (c.sourceRow : Int) =
      if o.fields.flipV = true then (im.height : Int) - 1 - ((y : Int) - o.ey) / o.fields.scaleY
      else ((y : Int) - o.ey) / o.fields.scaleY

/-- Sum of the costs of a list of candidates. -/
def totalCost (l : List Candidate) : Nat := (l.map Candidate.cost).sum

/-! ### The raster content of the stream (R129) -/

/-- The same raster symbol, whatever a pixel's value: PIXELs count as one kind. -/
def FwdSymbol.rasterKind : FwdSymbol → Option FwdSymbol
  | .frameStart => some .frameStart
  | .lineStart => some .lineStart
  | .pixel _ => some (.pixel Colour.zero)
  | .lineEnd => some .lineEnd
  | .frameEnd => some .frameEnd
  | .packetStart | .packetByte _ | .packetEnd | .idle => none

/-- The kind of raster symbol an item of FWD_OUT is. -/
def FwdOutput.rasterKind : FwdOutput → Option FwdSymbol
  | .symbol x => x.rasterKind
  | .linkDown => none
  | .linkUp => none

/-- All that FWD_OUT has carried, followed by what waits in the hold queue, in order. -/
def State.forwardStream (s : State) : List FwdOutput :=
  s.fwdSent ++ s.filter.holdQueue.map fun e => .symbol e.symbol

/-- The raster symbols of that stream, each PIXEL with its outgoing value. -/
def State.rasterStream (s : State) : List FwdOutput := s.forwardStream.filter fun x => x.rasterKind.isSome

/-- A symbol, as against a change of the link state. -/
def FwdOutput.isSymbol : FwdOutput → Bool
  | .symbol _ => true
  | .linkDown => false
  | .linkUp => false

/-- The symbols of that stream, without the changes of the link state that stand between them. -/
def State.symbolStream (s : State) : List FwdOutput := s.forwardStream.filter FwdOutput.isSymbol

/-- A symbol other than IDLE. -/
def FwdOutput.isContent : FwdOutput → Bool
  | .symbol .idle => false
  | .symbol _ => true
  | .linkDown => false
  | .linkUp => false

/-- The symbols other than IDLE that FWD_OUT has carried or that wait, in order: what R121 to R130 pass on. -/
def State.contentStream (s : State) : List FwdOutput := s.forwardStream.filter FwdOutput.isContent

/-- The raster symbol a command brings, none for the others. -/
def rasterOf : Instr → Option FwdSymbol
  | .frameStart => some .frameStart
  | .lineStart => some .lineStart
  | .pixel _ _ _ => some (.pixel Colour.zero)
  | .lineEnd => some .lineEnd
  | .frameEnd => some .frameEnd
  | _ => none

/-- The symbol other than FRAME_START that a command brings. -/
def symbolOf : Instr → Option FwdSymbol
  | .lineStart => some .lineStart
  | .pixel c0 c1 c2 => some (.pixel ⟨c0, c1, c2⟩)
  | .lineEnd => some .lineEnd
  | .frameEnd => some .frameEnd
  | .packetStart => some .packetStart
  | .packetByte b => some (.packetByte b)
  | .packetEnd => some .packetEnd
  | .idle => some .idle
  | _ => none

/-- The command is a hard reset's end: the release of RESET_N or power-up. -/
def isHardReset : Instr → Bool
  | .resetRelease _ => true
  | .powerUp _ => true
  | _ => false

end Sys2Proof.Machine
end

