-- ==== Sys2Proof/WellFormed.lean ====
section
/-! DEFINITION. Which terms of `Instr` are commands that can arise. -/

namespace Sys2Proof

/-- A host command's payload fits a packet that can pass the filter (0 to 248 bytes, R124). -/
def payloadFits (p : List Byte) : Bool := decide (p.length ≤ 248)

/-- A COMMIT payload whose mode byte is none of NEXT, AT and NOW; a payload without a mode byte is counted here. -/
def otherMode : List Byte → Bool
  | [] => true
  | m :: _ => decide (2 < m.toNat)

/-- A command that can arise: pixel components 0 to 1023 (R116), a payload that a packet can carry, a mode byte that is
none of the three for COMMIT_OTHER_MODE, and an unlisted code for UNKNOWN_COMMAND_CODE. -/
def wellFormed (i : Instr) : Bool :=
  match i with
  | .pixel c0 c1 c2 => decide (c0 < 1024) && decide (c1 < 1024) && decide (c2 < 1024)
  | .hello _ _ p | .status _ _ p | .setEvents _ _ p | .defineObject _ _ p | .moveObject _ _ p | .setObjectAttr _ _ p
  | .deleteObject _ _ p | .readObject _ _ p | .cancelCommit _ _ p | .setMode _ _ p | .discard _ _ p | .clearAll _ _ p
  | .createImage _ _ p | .loadImage _ _ p | .restartImage _ _ p | .releaseImage _ _ p | .imageInfo _ _ p
  | .writePalette _ _ p | .readPalette _ _ p => payloadFits p
  | .commitNext _ _ r | .commitAt _ _ r | .commitNow _ _ r => decide (r.length ≤ 247)
  | .commitOtherMode _ _ p => payloadFits p && otherMode p
  | .unknownCommandCode _ _ c p => payloadFits p && !listedCodes.contains c
  | .frameStart | .lineStart | .lineEnd | .frameEnd | .packetStart | .packetByte _ | .packetEnd | .idle
  | .forwardLinkDown | .forwardLinkUp | .drainEnd | .resetAssert | .resetRelease _ | .powerUp _
  | .upstreamRoomAsserted | .upstreamRoomWithdrawn | .transmissionStart | .transmissionEnd | .relayPacketStart
  | .relayPacketByte _ | .relayPacketEnd | .relayIdle | .returnOutputLinkDown | .returnOutputLinkUp
  | .returnInputLinkDown | .returnInputLinkUp => true

end Sys2Proof
end

