-- ==== Sys2Proof/Certificates/Slice0/Obligations.lean ====
section
/-! DEFINITION. The statements for the provers. Each docstring names the rules of spec/ it formalises; a clause that rests on a
choice of the model names the log entry. -/

section

open Sys2Proof Sys2Proof.Machine

/-! ### The queue, reset, and the packets of commands -/

/-- A step runs the command at the front of the queue on the state with the queue's rest, and idles on an empty queue: the
model's choice (log entry 1). -/
def Obligations.StepRunsTheFrontCommand : Prop :=
  (∀ (c : Instr) (s : State) (rest : List Instr), s.pending = c :: rest → step s = exec c { s with pending := rest }) ∧
  ∀ s : State, s.pending = [] → step s = .next s

/-- The state after reset obeys every law of Safety.lean (R2, R23, R45, R68, R85, R87, R99, R118, R120, R133, R149). -/
def Obligations.ResetStateIsLegal : Prop :=
  State.reset.tracker.Legal ∧ State.reset.ChannelLegal ∧ State.reset.session.Legal ∧ State.reset.reports.Legal ∧
  State.reset.ArbiterSettled ∧
  State.reset.images.Legal ∧ State.reset.ReferenceLegal ∧ State.reset.objects.AnchorLaw ∧
  State.reset.objects.PositionsResolved ∧ State.reset.palettes.Legal ∧ State.reset.generations.Legal ∧
  State.reset.CompositorLegal

/-- The forward packet (R162 to R164, R166): the packet written for a well-formed host command passes the checks and decodes to
that command at its unit; and a packet that decodes to a command, of kind 43h and with the ignored destination bits 0, is
byte for byte the packet written for it. -/
def Obligations.PacketsAndCommandsAgree : Prop :=
  (∀ (addr : BitVec 4) (i : Instr) (bytes : List Byte), addr ≠ 15 → wellFormed i = true →
    encodeCommand addr i = some bytes → decodeCommand addr bytes = some i) ∧
  ∀ (addr : BitVec 4) (i : Instr) (bytes : List Byte), bytes.length ≤ 256 → decodeCommand addr bytes = some i →
    bytes.head? = some kindCommand → byteAt bytes 1 < 16 → wellFormed i = true ∧ encodeCommand addr i = some bytes

/-! ### Invariants that every step keeps -/

/-- R98 to R112: the tracker's ranges and presences. -/
def Obligations.StepKeepsTrackerLegal : Prop :=
  ∀ s t : State, s.tracker.Legal → step s = .next t → t.tracker.Legal

/-- R117 to R123, R128, R129, R132: the packet filter's laws, the hold queue's limit of 258 symbols among them, the packet held only
outside a line, and the link state that FWD_OUT presents. That a drain's symbols leave in the slots of the symbols that arrive
meanwhile, and what is left of them together at DRAIN_END, is log entry 6, and that several drains may stand in line, with FWD_OUT
presenting UP between two of them, is log entry 7: the model's readings, which the manual does not state. -/
def Obligations.StepKeepsForwardChannelLegal : Prop :=
  ∀ s t : State, s.ChannelLegal → step s = .next t → t.ChannelLegal

/-- R133: E is L + 1 with the acknowledgement of L cached in SYNCED, all three absent in UNSYNCED, and the first discarded
sequence present exactly while the discard tally is above 0. -/
def Obligations.StepKeepsSessionLegal : Prop :=
  ∀ s t : State, s.session.Legal → step s = .next t → t.session.Legal

/-- R149, R150, R153, R155, R157, R159: the two queues, the pending event set and the transmitter; and every step leaves the
arbiter nothing to decide: on an UP lane with ROOM asserted the transmitter is free only while neither queue has a packet at its
head that may be sent, and it holds no abandoned packet. -/
def Obligations.StepKeepsReportUnitLegal : Prop :=
  (∀ s t : State, s.reports.Legal → step s = .next t → t.reports.Legal) ∧
  ∀ s t : State, s.ArbiterSettled → step s = .next t → t.ArbiterSettled

/-- R68 to R70: every page in one place, every directory entry consistent. The third clause is the model's own and no rule's: the
store is listed as its bytes that are not 0, in rising order of address (log entry 22), and every step keeps that canonical form.
Each is kept on its own. -/
def Obligations.StepKeepsImageStoreLegal : Prop :=
  (∀ s t : State, s.images.PageLaw → step s = .next t → t.images.PageLaw) ∧
  (∀ s t : State, s.images.EntriesLegal → step s = .next t → t.images.EntriesLegal) ∧
  ∀ s t : State, Memory.wf s.images.memory = true → step s = .next t → Memory.wf t.images.memory = true

/-- R1, R5, R73: records in range, reference counts equal to the records that name an image, and every named image complete. -/
def Obligations.StepKeepsReferencesExact : Prop :=
  ∀ s t : State, s.ReferenceLegal → step s = .next t → t.ReferenceLegal

/-- R6: in each generation every chain of anchors ends at a root within 3 links. -/
def Obligations.StepKeepsAnchorChainsShort : Prop :=
  ∀ s t : State, s.objects.AnchorLaw → step s = .next t → t.objects.AnchorLaw

/-- R18: effective positions are the sums along the chains, with the laws of the staged side they are made from. -/
def Obligations.StepKeepsPositionsResolved : Prop :=
  ∀ s t : State, s.objects.PositionsResolved → s.objects.AnchorLaw → s.objects.RecordsInRange → step s = .next t →
    t.objects.PositionsResolved

/-- R20, R21, R86, R89: fill colours and palette entries in range, and at most one pending write for a pair, at most 256. -/
def Obligations.StepKeepsColoursInRange : Prop :=
  (∀ s t : State, s.palettes.Legal → step s = .next t → t.palettes.Legal) ∧
  ∀ s t : State, s.generations.Legal → step s = .next t → t.generations.Legal

/-- R45 to R47, R51, R56: when the compositing-active flag may be set, when the list is empty, and its two limits. -/
def Obligations.StepKeepsCompositorLegal : Prop :=
  ∀ s t : State, s.CompositorLegal → step s = .next t → t.CompositorLegal

/-- R119: a unit strapped to 15 stays as hard reset left it, through every command but a hard reset. -/
def Obligations.UnaddressedUnitStaysAtReset : Prop :=
  ∀ (s t : State) (c : Instr), s.Dormant → isHardReset c = false → exec c s = .next t → t.Dormant

/-! ### Rules over all commands -/

/-- R35: while LOCKED the active generation and the active palettes change only at a FRAME_START, hard reset apart; the
apply alone writes them outside hard reset (and raises the generation number); and hard reset places the tracker in
NO_SIGNAL. -/
def Obligations.ActiveSideStandsWhileLocked : Prop :=
  (∀ (s t : State) (c : Instr), s.HoldingLegal → s.tracker.rasterState = .locked → isHardReset c = false →
    c ≠ .frameStart → exec c s = .next t → t.activeSide = s.activeSide) ∧
  (∀ (s t : State) (c : Instr), isHardReset c = false → exec c s = .next t → t.activeSide ≠ s.activeSide →
    t.generations.generation = s.generations.generation + 1 ∧ t.generations.commit = .idle) ∧
  ∀ (s t : State) (c : Instr), isHardReset c = true → exec c s = .next t → t.tracker.rasterState = .noSignal

/-- R38: while armed the staged generation and the pending write list change only through CLEAR_ALL (the FRAME_START that applies
empties the list and leaves the armed state); every other command that would edit them is refused with ARMED before it
changes anything. -/
def Obligations.StagedSideStandsWhileArmed : Prop :=
  (∀ (s t : State) (c : Instr), wellFormed c = true → s.generations.commit.isArmed = true → isHardReset c = false →
    exec c s = .next t →
    t.stagedSide = s.stagedSide ∨
    (c = .frameStart ∧ t.generations.commit = .idle ∧
      t.stagedSide = (s.objects.staged, s.generations.stagedMode, s.generations.stagedFill, [])) ∨
    (((∃ how seq p, c = .clearAll how seq p) ∨
        (c = .packetEnd ∧ ∃ dest seq p, checkPacket (heldBytes s.filter.holdQueue) = .good dest seq codeClearAll p)) ∧
      t.stagedSide = (Vector.replicate 64 none, .pass, s.generations.stagedFill, []))) ∧
  ∀ (s : State) (i : Instr) (seq code : Byte) (p : List Byte), carried i = some (.unicast, seq, code, p) →
    s.Expects seq → s.generations.commit.isArmed = true → lengthFits code p = true →
    code ∈ [codeDefineObject, codeMoveObject, codeSetObjectAttr, codeDeleteObject, codeWritePalette, codeSetMode,
      codeDiscard] →
    ∃ data, exec i s = .next (s.accepted ⟨seq, code, .armed, data⟩)

/-- R67, R72: outside hard reset a byte of the store changes only in a page of a LOADING image, and so the bytes of an image that
is READY or RETIRING stand still. -/
def Obligations.ImageBytesStandOutsideLoading : Prop :=
  (∀ (s t : State) (c : Instr) (a : Nat), isHardReset c = false → exec c s = .next t →
    Memory.read t.images.memory a = Memory.read s.images.memory a ∨
    ∃ h im page, s.images.imageAt h = some im ∧ im.phase = .loading ∧ page ∈ im.pageMap ∧
      a / Config.pageBytes = page.val) ∧
  ∀ (s t : State) (c : Instr) (h n : Nat) (im : Image), s.images.PageLaw → isHardReset c = false →
    exec c s = .next t → s.images.imageAt h = some im → im.phase ≠ .loading →
    imageByte t.images.memory im.pageMap n = imageByte s.images.memory im.pageMap n

/-- R129: FWD_OUT carries every raster symbol that arrived while symbols are taken, in arrival order, and no others; the value of a
pixel under way does not change. Power-up apart, where what waited is lost (log entry 9). -/
def Obligations.RasterSymbolsLeaveInArrivalOrder : Prop :=
  ∀ (s t : State) (c : Instr), s.filter.Legal → (∀ straps, c ≠ .powerUp straps) → exec c s = .next t →
    ∃ new, t.rasterStream = s.rasterStream ++ new ∧
      new.filterMap FwdOutput.rasterKind = if s.receiving = true then (rasterOf c).toList else []

/-- R101: the frame counter rises by 1, wrapping, at every FRAME_START taken, in every raster state, inside a frame or not; no other
command moves it, and hard reset sets it to 0. -/
def Obligations.FrameCounterCountsFrameStarts : Prop :=
  (∀ (s t : State) (c : Instr), isHardReset c = false → exec c s = .next t →
    t.tracker.frameCounter =
      if c = .frameStart ∧ s.receiving = true then s.tracker.frameCounter + 1 else s.tracker.frameCounter) ∧
  ∀ (s t : State) (c : Instr), isHardReset c = true → exec c s = .next t → t.tracker.frameCounter = 0

/-- No command stops the block (log entry 20): each answers a next state, leaves the waiting commands alone, and takes back
nothing that an output has sent. -/
def Obligations.EveryCommandAnswersANextState : Prop :=
  ∀ (s : State) (c : Instr), ∃ t, exec c s = .next t ∧ t.pending = s.pending ∧ s.fwdSent <+: t.fwdSent ∧
    s.retSent <+: t.retSent

/-! ### The command session -/

/-- R135 to R140: a unicast command of any row that meets a full report queue is discarded and counted; one that is not HELLO in
UNSYNCED, or whose number is neither E nor L in SYNCED, is answered NAK SEQUENCE; one numbered L is answered by the cached
acknowledgement marked REPEAT (R140). No block is reached. -/
def Obligations.UnacceptedUnicastsReachNoBlock : Prop :=
  ∀ (s : State) (i : Instr) (seq code : Byte) (p : List Byte), carried i = some (.unicast, seq, code, p) →
    s.takesCommands = true → s.session.Legal →
    (8 ≤ s.reports.queue.length →
      exec i s = .next { s with session := { s.session with
        discardTally := min 255 (s.session.discardTally + 1)
        firstDiscarded := if s.session.discardTally = 0 then some seq else s.session.firstDiscarded } }) ∧
    (s.reports.queue.length < 8 → (∀ x ∈ s.reports.queue, x ≠ .reserved) → code ≠ codeHello →
      s.session.sessionState = .unsynced → exec i s = .next (s.answered ⟨seq, code, .sequence, [0, 0]⟩ false)) ∧
    (∀ e, s.reports.queue.length < 8 → (∀ x ∈ s.reports.queue, x ≠ .reserved) → code ≠ codeHello →
      s.session.sessionState = .synced → s.session.expected = some e → seq ≠ e → s.session.last ≠ some seq →
      exec i s = .next (s.answered ⟨seq, code, .sequence, [1, e]⟩ false)) ∧
    ∀ a, s.reports.queue.length < 8 → (∀ x ∈ s.reports.queue, x ≠ .reserved) → s.session.sessionState = .synced →
      s.session.last = some seq → s.session.cached = some a → exec i s = .next (s.answered a true)

/-- R141, R164: a code the table does not list is answered UNKNOWN, a payload whose length does not fit LENGTH; both consume the
number and reach no block. -/
def Obligations.UnknownAndMisfittingCommandsAreRefused : Prop :=
  ∀ (s : State) (i : Instr) (seq code : Byte) (p : List Byte), carried i = some (.unicast, seq, code, p) →
    s.Expects seq →
    (code ∉ listedCodes → exec i s = .next (s.accepted ⟨seq, code, .unknown, []⟩)) ∧
    (code ∈ listedCodes → lengthFits code p = false → exec i s = .next (s.accepted ⟨seq, code, .length, []⟩))

/-- R143: a broadcast of any row that is not a fitting COMMIT NEXT or AT or a fitting CLEAR_ALL, and a COMMIT that the generation
controller refuses with ARMED or RANGE, is dropped and counted, and changes nothing else. -/
def Obligations.OtherBroadcastsAreOnlyCounted : Prop :=
  ∀ (s : State) (i : Instr) (seq code : Byte) (p : List Byte), carried i = some (.broadcast, seq, code, p) →
    s.takesCommands = true → s.session.refusalTally ≤ 255 →
    (¬(code = codeCommit ∧ p.length = 3 ∧ byteAt p 0 < 2) ∧ ¬(code = codeClearAll ∧ p = []) ∨
      code = codeCommit ∧ p.length = 3 ∧ s.generations.commit.isArmed = true ∨
      code = codeCommit ∧ p.length = 3 ∧ byteAt p 0 = 1 ∧
        ¬(1 ≤ horizonOf s (commitTarget p) ∧ horizonOf s (commitTarget p) ≤ 1024)) →
    exec i s = .next { s with session := { s.session with refusalTally := min 255 (s.session.refusalTally + 1) } }

/-- R145: HELLO with no payload is accepted in UNSYNCED, and in SYNCED under every number but L, sets L and E, and returns the
identity reply, written out; with a payload it is accepted all the same and answered LENGTH. -/
def Obligations.HelloSynchronisesTheSession : Prop :=
  ∀ (s : State) (seq : Byte) (p : List Byte), s.takesCommands = true → s.reports.queue.length < 8 →
    (∀ x ∈ s.reports.queue, x ≠ .reserved) →
    (s.session.sessionState = .unsynced ∨ s.session.sessionState = .synced ∧ s.session.last ≠ some seq) →
    (p = [] → exec (.hello .unicast seq p) s = .next (s.accepted ⟨seq, codeHello, .ok,
      [0x4B, 0x16, 1, s.unitAddress.setWidth 8, seq + 1, 64, 128, 8, 0, 128, 8, 1, 0, 1, 0, 12, 8, 0, 8, 4]⟩)) ∧
    (p ≠ [] → exec (.hello .unicast seq p) s = .next (s.accepted ⟨seq, codeHello, .length, []⟩))

/-- R146, R167: STATUS changes nothing but its own acceptance and returns the 46 bytes of the status record, each item at its
place. -/
def Obligations.StatusReturnsTheRecord : Prop :=
  ∀ (s : State) (seq : Byte), s.Expects seq → ∃ d, exec (.status .unicast seq []) s = .next (s.accepted ⟨seq, codeStatus, .ok, d⟩) ∧
    d.length = 46 ∧
    d.take 2 = [s.tracker.rasterState.code, flagByte [s.tracker.locked.isSome, s.tracker.fault.isSome,
      s.generations.stagedDirty, s.compositor.lastFrame.firstLine.isSome, s.compositor.lastFrame.cutShort]] ∧
    (d.drop 2).take 4 = be16 ((s.tracker.locked.map Geometry.w).getD 0) ++ be16 ((s.tracker.locked.map Geometry.h).getD 0) ∧
    (d.drop 6).take 2 = be16 s.tracker.frameCounter.toNat ∧
    (d.drop 8).take 5 = faultCode (s.tracker.fault.map FaultRecord.kind) ::
      (be16 ((s.tracker.fault.map fun r => r.frame.toNat).getD 0) ++ be16 ((s.tracker.fault.map FaultRecord.line).getD 0)) ∧
    (d.drop 13).take 2 = be16 s.generations.generation.toNat ∧
    (d.drop 15).take 3 = s.generations.commit.code :: be16 s.generations.commit.targetValue ∧
    (d.drop 18).take 1 = [s.generations.activeMode.code] ∧
    (d.drop 19).take 2 = be16 s.images.freePages.length ∧
    (d.drop 21).take 4 = [u8 (s.images.countState 0), u8 (s.images.countState 1), u8 (s.images.countState 2),
      u8 (s.images.countState 3)] ∧
    (d.drop 25).take 2 = [u8 s.objects.stagedCount, u8 s.objects.activeCount] ∧
    (d.drop 27).take 2 = be16 s.palettes.writes.length ∧
    (d.drop 29).take 8 = be16 s.compositor.lastFrame.linesTruncated ++ be16 (s.compositor.lastFrame.firstLine.getD 0) ++
      be16 s.compositor.lastFrame.recordsOmitted ++ be16 s.compositor.lastFrame.frame.toNat ∧
    (d.drop 37).take 4 = be16 s.filter.crcTally ++ be16 s.filter.truncTally ∧
    (d.drop 41).take 2 = [u8 s.session.discardTally, u8 s.session.refusalTally] ∧
    d.drop 43 = [s.reports.events.byte, s.session.mask.byte, u8 (7 - s.reports.queue.length)]

/-- R147: SET_EVENTS puts the carried mask in place of the old one, bit 0 RASTER to bit 3 LINK, and drops the pending events of the
kinds now disabled; a bit that names no kind is refused with RANGE. -/
def Obligations.SetEventsReplacesTheMask : Prop :=
  ∀ (s : State) (seq m : Byte), s.Expects seq →
    (m.toNat < 16 → ∃ t, exec (.setEvents .unicast seq [m]) s = .next t ∧
      (t.session.mask.raster = m.getLsbD 0 ∧ t.session.mask.commit = m.getLsbD 1 ∧
        t.session.mask.truncation = m.getLsbD 2 ∧ t.session.mask.link = m.getLsbD 3) ∧
      t.reports.events.raster = (if m.getLsbD 0 then s.reports.events.raster else none) ∧
      t.reports.events.commit = (if m.getLsbD 1 then s.reports.events.commit else none) ∧
      t.reports.events.truncation = (if m.getLsbD 2 then s.reports.events.truncation else none) ∧
      t.reports.events.link = (if m.getLsbD 3 then s.reports.events.link else none) ∧
      let u := s.accepted ⟨seq, codeSetEvents, .ok, [m, t.reports.events.byte]⟩
      t = { u with session := { u.session with mask := t.session.mask },
                   reports := { u.reports with events := t.reports.events } }) ∧
    (16 ≤ m.toNat → exec (.setEvents .unicast seq [m]) s = .next (s.accepted ⟨seq, codeSetEvents, .range, []⟩))

/-! ### Overlay objects -/

/-- R7 to R9: DEFINE_OBJECT, every check passed, makes the staged record DEFINED with exactly the carried fields, moves the staged
reference counts, sets staged-dirty and answers the id and the depth; the active side and every other record stand. Refused, it
changes nothing: ARMED, RANGE, NO_IMAGE, NOT_READY, and for a present anchor what the anchor checks answer (NO_OBJECT, CYCLE or
DEPTH with their data, as AnchorChecksKeepChainsShort states them), in that order. -/
def Obligations.DefineObjectWritesTheRecord : Prop :=
  ∀ (s : State) (seq : Byte) (p : List Byte), s.Expects seq → p.length = 26 →
    let id := byteAt p 0
    let anchor : Option Nat := if byteAt p 15 = 1 then some (byteAt p 16) else none
    let inRange := id < 64 ∧ byteAt p 1 < 128 ∧ (-1024 ≤ s16At p 2 ∧ s16At p 2 ≤ 4095) ∧
      (-1024 ≤ s16At p 4 ∧ s16At p 4 ≤ 4095) ∧ byteAt p 7 < 8 ∧ byteAt p 8 < 16 ∧ (1 ≤ byteAt p 9 ∧ byteAt p 9 ≤ 4) ∧
      (1 ≤ byteAt p 10 ∧ byteAt p 10 ≤ 4) ∧ (byteAt p 11 ≤ 1 ∧ byteAt p 12 ≤ 1) ∧ byteAt p 13 ≤ 15 ∧
      (byteAt p 14 ≤ 1 ∧ byteAt p 15 ≤ 1 ∧ byteAt p 17 ≤ 1) ∧ (byteAt p 15 = 1 → byteAt p 16 < 64) ∧
      (byteAt p 17 = 1 → u16At p 18 < u16At p 22 ∧ u16At p 20 < u16At p 24 ∧ u16At p 22 ≤ 4096 ∧ u16At p 24 ≤ 4096)
    let new : ObjectFields := {
      image := byteAt p 1, x := s16At p 2, y := s16At p 4, z := byteAt p 6, palette := byteAt p 7, row := byteAt p 8
      scaleX := byteAt p 9, scaleY := byteAt p 10, flipH := byteAt p 11 == 1, flipV := byteAt p 12 == 1
      opacity := byteAt p 13, visible := byteAt p 14 == 1, anchor := anchor
      clip := if byteAt p 17 = 1 then some ⟨u16At p 18, u16At p 20, u16At p 22, u16At p 24⟩ else none }
    let refusal (st : Status) (d : List Byte) :=
      exec (.defineObject .unicast seq p) s = .next (s.accepted ⟨seq, codeDefineObject, st, d⟩)
    (s.generations.commit ≠ .idle → refusal .armed []) ∧
    (s.generations.commit = .idle → ¬inRange → refusal .range []) ∧
    (s.generations.commit = .idle → inRange → s.images.imageAt (byteAt p 1) = none → refusal .noImage []) ∧
    ∀ im, s.generations.commit = .idle → inRange → s.images.imageAt (byteAt p 1) = some im →
      (im.phase ≠ .ready → refusal .notReady []) ∧
      (im.phase = .ready → ∀ named st d, anchor = some named → checkAnchor s.objects id named = .failed st d →
        refusal st d) ∧
      (im.phase = .ready → (∀ named, anchor = some named → checkAnchor s.objects id named = .passed) →
        ∃ t, exec (.defineObject .unicast seq p) s = .next t ∧
          (∀ i, t.objects.stagedAt i = if i = id then some new else s.objects.stagedAt i) ∧
          t.objects.active = s.objects.active ∧
          (∀ h, h < 128 → t.images.entry h =
            s.images.entryAfterEdit ((s.objects.stagedAt id).map ObjectFields.image) (some (byteAt p 1)) h) ∧
          t = { s.accepted ⟨seq, codeDefineObject, .ok, [u8 id, u8 (depthOf t.objects.stagedAt 3 id)]⟩ with
            objects := t.objects
            images := { s.images with directory := t.images.directory }
            generations := { s.generations with stagedDirty := true } })

/-- R10: MOVE_OBJECT sets x and y of a DEFINED staged record and nothing else of the tables but staged-dirty; refused, it changes
nothing: ARMED, then RANGE, then NO_OBJECT. -/
def Obligations.MoveObjectSetsThePosition : Prop :=
  ∀ (s : State) (seq : Byte) (p : List Byte), s.Expects seq → p.length = 5 →
    let id := byteAt p 0
    let inRange := id < 64 ∧ (-1024 ≤ s16At p 1 ∧ s16At p 1 ≤ 4095) ∧ -1024 ≤ s16At p 3 ∧ s16At p 3 ≤ 4095
    (∀ o, s.generations.commit = .idle → inRange → s.objects.stagedAt id = some o →
      ∃ t, exec (.moveObject .unicast seq p) s = .next t ∧
        (∀ i, t.objects.stagedAt i =
          if i = id then some { o with x := s16At p 1, y := s16At p 3 } else s.objects.stagedAt i) ∧
        t.objects.active = s.objects.active ∧
        t = { s.accepted ⟨seq, codeMoveObject, .ok, [u8 id]⟩ with
          objects := t.objects
          generations := { s.generations with stagedDirty := true } }) ∧
    (s.generations.commit ≠ .idle →
      exec (.moveObject .unicast seq p) s = .next (s.accepted ⟨seq, codeMoveObject, .armed, []⟩)) ∧
    (s.generations.commit = .idle → ¬inRange →
      exec (.moveObject .unicast seq p) s = .next (s.accepted ⟨seq, codeMoveObject, .range, []⟩)) ∧
    (s.generations.commit = .idle → inRange → s.objects.stagedAt id = none →
      exec (.moveObject .unicast seq p) s = .next (s.accepted ⟨seq, codeMoveObject, .noObject, []⟩))

/-- R7, R8, R11, R12: SET_OBJECT_ATTR, every check passed, applies every present item at once to the staged record and leaves x, y
and the other fields; with no item present it changes no record and still sets staged-dirty. Refused, it changes nothing: ARMED,
RANGE, NO_OBJECT, then for an image item NO_IMAGE and NOT_READY, then for an anchor item that sets one what the anchor checks
answer (NO_OBJECT, CYCLE or DEPTH with their data, as AnchorChecksKeepChainsShort states them). -/
def Obligations.SetObjectAttrAppliesItsItems : Prop :=
  ∀ (s : State) (seq : Byte) (p : List Byte), s.Expects seq → lengthFits codeSetObjectAttr p = true →
    let id := byteAt p 0
    let on (i : Nat) : Prop := attrFlag p i = true
    let v (i k : Nat) : Nat := byteAt p (attrOffset p i + k)
    let clip := clipAt p (attrOffset p 8)
    let inRange := id < 64 ∧ ¬(on 8 ∧ on 9) ∧ ¬(on 10 ∧ on 11) ∧ (¬on 12 ∧ ¬on 13 ∧ ¬on 14 ∧ ¬on 15) ∧
      (on 0 → v 0 0 < 128) ∧ (on 2 → v 2 0 < 8) ∧ (on 3 → v 3 0 < 16) ∧
      (on 4 → (1 ≤ v 4 0 ∧ v 4 0 ≤ 4) ∧ 1 ≤ v 4 1 ∧ v 4 1 ≤ 4) ∧ (on 5 → v 5 0 ≤ 1 ∧ v 5 1 ≤ 1) ∧
      (on 6 → v 6 0 ≤ 15) ∧ (on 7 → v 7 0 ≤ 1) ∧ (on 8 → clip.InRange) ∧ (on 10 → v 10 0 < 64)
    let refusal (st : Status) (d : List Byte) :=
      exec (.setObjectAttr .unicast seq p) s = .next (s.accepted ⟨seq, codeSetObjectAttr, st, d⟩)
    (s.generations.commit ≠ .idle → refusal .armed []) ∧
    (s.generations.commit = .idle → ¬inRange → refusal .range []) ∧
    (s.generations.commit = .idle → inRange → s.objects.stagedAt id = none → refusal .noObject []) ∧
    ∀ o, s.generations.commit = .idle → inRange → s.objects.stagedAt id = some o →
      let ready := on 0 → ∃ im, s.images.imageAt (v 0 0) = some im ∧ im.phase = .ready
      let new : ObjectFields := { o with
        image := if on 0 then v 0 0 else o.image
        z := if on 1 then v 1 0 else o.z
        palette := if on 2 then v 2 0 else o.palette
        row := if on 3 then v 3 0 else o.row
        scaleX := if on 4 then v 4 0 else o.scaleX
        scaleY := if on 4 then v 4 1 else o.scaleY
        flipH := if on 5 then v 5 0 == 1 else o.flipH
        flipV := if on 5 then v 5 1 == 1 else o.flipV
        opacity := if on 6 then v 6 0 else o.opacity
        visible := if on 7 then v 7 0 == 1 else o.visible
        clip := if on 8 then some clip else if on 9 then none else o.clip
        anchor := if on 10 then some (v 10 0) else if on 11 then none else o.anchor }
      (on 0 → s.images.imageAt (v 0 0) = none → refusal .noImage []) ∧
      (∀ im, on 0 → s.images.imageAt (v 0 0) = some im → im.phase ≠ .ready → refusal .notReady []) ∧
      (∀ st d, ready → on 10 → checkAnchor s.objects id (v 10 0) = .failed st d → refusal st d) ∧
      (u16At p 1 = 0 → new = o) ∧
      (ready → (on 10 → checkAnchor s.objects id (v 10 0) = .passed) →
        ∃ t, exec (.setObjectAttr .unicast seq p) s = .next t ∧
          (∀ i, t.objects.stagedAt i = if i = id then some new else s.objects.stagedAt i) ∧
          t.objects.active = s.objects.active ∧
          (∀ h, h < 128 → t.images.entry h = s.images.entryAfterEdit (some o.image) (some new.image) h) ∧
          t = { s.accepted ⟨seq, codeSetObjectAttr, .ok, [u8 id, u8 (depthOf t.objects.stagedAt 3 id)]⟩ with
            objects := t.objects
            images := { s.images with directory := t.images.directory }
            generations := { s.generations with stagedDirty := true } })

/-- R8, R15: DELETE_OBJECT makes a DEFINED staged record that no staged record anchors to FREE and lowers its image's staged
count; the active record stands. Refused, it changes nothing: ARMED, RANGE, NO_OBJECT, IN_USE in that order. -/
def Obligations.DeleteObjectFreesTheRecord : Prop :=
  ∀ (s : State) (seq b : Byte), s.Expects seq →
    let id := b.toNat
    let anchored := ∃ j o, s.objects.stagedAt j = some o ∧ o.anchor = some id
    let refusal (st : Status) := exec (.deleteObject .unicast seq [b]) s = .next (s.accepted ⟨seq, codeDeleteObject, st, []⟩)
    (∀ o, s.generations.commit = .idle → id < 64 → s.objects.stagedAt id = some o → ¬anchored →
      ∃ t, exec (.deleteObject .unicast seq [b]) s = .next t ∧
        (∀ i, t.objects.stagedAt i = if i = id then none else s.objects.stagedAt i) ∧
        t.objects.active = s.objects.active ∧
        (∀ h, h < 128 → t.images.entry h = s.images.entryAfterEdit (some o.image) none h) ∧
        t = { s.accepted ⟨seq, codeDeleteObject, .ok, [b]⟩ with
          objects := t.objects
          images := { s.images with directory := t.images.directory }
          generations := { s.generations with stagedDirty := true } }) ∧
    (s.generations.commit ≠ .idle → refusal .armed) ∧
    (s.generations.commit = .idle → 64 ≤ id → refusal .range) ∧
    (s.generations.commit = .idle → id < 64 → s.objects.stagedAt id = none → refusal .noObject) ∧
    (s.generations.commit = .idle → id < 64 → s.objects.stagedAt id ≠ none → anchored → refusal .inUse)

/-- R16, R84, R96: READ_OBJECT, IMAGE_INFO and READ_PALETTE change nothing but their own acceptance, in every commit state, and
return the record, the entry and the palette entry named; out of range they are refused. -/
def Obligations.ReadCommandsReturnWithoutChange : Prop :=
  ∀ (s : State) (seq : Byte), s.Expects seq →
    (∀ a b : Byte, a.toNat < 64 → (b = 0 ∨ b = 1) → ∃ d,
      exec (.readObject .unicast seq [a, b]) s = .next (s.accepted ⟨seq, codeReadObject, .ok, d⟩) ∧
      (b = 0 → d = match s.objects.stagedAt a.toNat with
        | none => [0, a, 0]
        | some o => [0, a, 1] ++ o.bytes) ∧
      (b = 1 → d = match s.objects.activeAt a.toNat with
        | none => [1, a, 0]
        | some o => [1, a, 1] ++ o.fields.bytes ++ beSigned16 o.ex ++ beSigned16 o.ey)) ∧
    (∀ a b : Byte, 64 ≤ a.toNat ∨ 2 ≤ b.toNat →
      exec (.readObject .unicast seq [a, b]) s = .next (s.accepted ⟨seq, codeReadObject, .range, []⟩)) ∧
    (∀ a : Byte, a.toNat < 128 → ∃ d, exec (.imageInfo .unicast seq [a]) s = .next (s.accepted ⟨seq, codeImageInfo, .ok, d⟩) ∧
      d.take 6 = [a, (s.images.entry a.toNat).stateCode] ++ be16 s.images.freePages.length ++
        [u8 (s.images.entry a.toNat).stagedRefs, u8 (s.images.entry a.toNat).activeRefs] ∧
      (s.images.imageAt a.toNat = none → d.length = 6) ∧
      ∀ im, s.images.imageAt a.toNat = some im → d.length = 25 ∧
        (d.drop 6).take 9 = be16 im.width ++ be16 im.height ++ [u8 im.depth] ++ be32 im.size ∧
        (d.drop 15).take 2 = be16 im.pageMap.length ∧ d.drop 21 = be32 im.cursor ∧
        ∀ first last, im.pageMap.head? = some first → im.pageMap.getLast? = some last →
          (d.drop 17).take 4 = be16 first.val ++ be16 last.val) ∧
    (∀ a : Byte, 128 ≤ a.toNat →
      exec (.imageInfo .unicast seq [a]) s = .next (s.accepted ⟨seq, codeImageInfo, .range, []⟩)) ∧
    (∀ a i f : Byte, a.toNat < 8 → (f = 0 ∨ f = 1) → ∃ d,
      exec (.readPalette .unicast seq [a, i, f]) s = .next (s.accepted ⟨seq, codeReadPalette, .ok, d⟩) ∧
      ((f = 0 ∨ ∀ w ∈ s.palettes.writes, ¬(w.palette = a.toNat ∧ w.index = i.toNat)) →
        d = [a, i, 0] ++ (s.palettes.entryAt a.toNat i.toNat).bytes ++ [0] ++ be16 s.palettes.writes.length) ∧
      (f = 1 → ∀ k w, s.palettes.writes[k]? = some w → w.palette = a.toNat → w.index = i.toNat →
        (∀ j v, j < k → s.palettes.writes[j]? = some v → ¬(v.palette = a.toNat ∧ v.index = i.toNat)) →
        d = [a, i, 1] ++ w.entry.bytes ++ [u8 k] ++ be16 s.palettes.writes.length)) ∧
    ∀ a i f : Byte, 8 ≤ a.toNat ∨ 2 ≤ f.toNat →
      exec (.readPalette .unicast seq [a, i, f]) s = .next (s.accepted ⟨seq, codeReadPalette, .range, []⟩)

/-- R6, R13, R14: on a staged side that obeys R6, an anchor that names a FREE record other than the target is refused with
NO_OBJECT, one that is the target or leads back to it with CYCLE and the named id, one that would make a chain of 4 to 7 links
with DEPTH and that length (the named record's depth, 1, and the target's height), and any other passes. An anchor passes exactly
where the chain law stands with it. -/
def Obligations.AnchorChecksKeepChainsShort : Prop :=
  ∀ (t : ObjectTable) (target named : Nat) (o : ObjectFields), ChainLaw t.stagedAt → target < 64 → o.anchor = some named →
    let leadsBack := passesThrough t.stagedAt target 3 named = true
    let n := depthOf t.stagedAt 3 named + 1 + heightOf t.stagedAt 3 target
    (checkAnchor t target named = .passed ↔ ChainLaw (t.setStaged target (some o)).stagedAt) ∧
    (t.stagedAt named = none → named ≠ target → checkAnchor t target named = .failed .noObject []) ∧
    (t.stagedAt named ≠ none ∨ named = target → leadsBack → checkAnchor t target named = .failed .cycle [u8 named]) ∧
    (t.stagedAt named ≠ none → ¬leadsBack → 3 < n → n ≤ 7 ∧ checkAnchor t target named = .failed .depth [u8 n]) ∧
    (t.stagedAt named ≠ none → ¬leadsBack → n ≤ 3 → checkAnchor t target named = .passed)

/-! ### Generations and commit -/

/-- R26, R27, R44: in IDLE, COMMIT NEXT arms the next FRAME_START and COMMIT AT, with a horizon of 1 to 1024, its target; unicast
they answer the commit state, target, frame counter, generation number and staged-dirty, broadcast they answer nothing. -/
def Obligations.CommitArmsInIdle : Prop :=
  ∀ (s : State) (seq : Byte), s.generations.commit = .idle →
    let armed (u : State) (c : CommitState) : State := { u with generations := { s.generations with commit := c } }
    let ack (c : CommitState) : Ack := ⟨seq, codeCommit, .ok,
      commitReply c s.tracker.frameCounter s.generations.generation s.generations.stagedDirty⟩
    (∀ rest : List Byte, rest.length = 2 →
      (s.Expects seq → exec (.commitNext .unicast seq rest) s = .next (armed (s.accepted (ack .armedNext)) .armedNext)) ∧
      (s.takesCommands = true → exec (.commitNext .broadcast seq rest) s = .next (armed s .armedNext))) ∧
    ∀ target : Word16, 1 ≤ (target - s.tracker.frameCounter).toNat → (target - s.tracker.frameCounter).toNat ≤ 1024 →
      (s.Expects seq → exec (.commitAt .unicast seq (be16 target.toNat)) s =
        .next (armed (s.accepted (ack (.armedAt target))) (.armedAt target))) ∧
      (s.takesCommands = true → exec (.commitAt .broadcast seq (be16 target.toNat)) s = .next (armed s (.armedAt target)))

/-- R25, R27, R28: a COMMIT of any mode is refused with ARMED while armed; in IDLE an AT whose horizon is 0 or above 1024 with
RANGE, a mode that is none of the three with RANGE, and NOW while LOCKED with LOCKED. A refusal answers the commit state as it
stands and changes nothing. -/
def Obligations.CommitRefusalsChangeNothing : Prop :=
  ∀ (s : State) (seq : Byte), s.Expects seq →
    let refusal (st : Status) : State := s.accepted ⟨seq, codeCommit, st,
      commitReply s.generations.commit s.tracker.frameCounter s.generations.generation s.generations.stagedDirty⟩
    (∀ rest : List Byte, rest.length = 2 → s.generations.commit ≠ .idle →
      exec (.commitNext .unicast seq rest) s = .next (refusal .armed) ∧
      exec (.commitAt .unicast seq rest) s = .next (refusal .armed) ∧
      exec (.commitNow .unicast seq rest) s = .next (refusal .armed)) ∧
    (∀ m a b : Byte, 2 < m.toNat →
      exec (.commitOtherMode .unicast seq [m, a, b]) s =
        .next (refusal (if s.generations.commit = .idle then .range else .armed))) ∧
    (∀ target : Word16, s.generations.commit = .idle →
      (target - s.tracker.frameCounter).toNat = 0 ∨ 1024 < (target - s.tracker.frameCounter).toNat →
      exec (.commitAt .unicast seq (be16 target.toNat)) s = .next (refusal .range)) ∧
    ∀ rest : List Byte, rest.length = 2 → s.generations.commit = .idle → s.tracker.rasterState = .locked →
      exec (.commitNow .unicast seq rest) s = .next (refusal .locked)

/-- R28, R31 to R33: COMMIT NOW, in IDLE with the tracker not LOCKED, makes the whole apply at once and answers IDLE with the new
generation number. That its COMMIT event stands behind its acknowledgement, whose slot is reserved first, is log entry 13, read
from R136, R148 and R150. -/
def Obligations.CommitNowAppliesAtOnce : Prop :=
  ∀ (s : State) (seq : Byte) (rest : List Byte), s.Expects seq → rest.length = 2 → s.generations.commit = .idle →
    s.tracker.rasterState ≠ .locked → s.palettes.Legal →
    ∃ t, exec (.commitNow .unicast seq rest) s = .next t ∧ s.Applied t ∧
      let a : Ack := ⟨seq, codeCommit, .ok,
        commitReply .idle s.tracker.frameCounter (s.generations.generation + 1) s.generations.stagedDirty⟩
      t = { s.accepted a with
        objects := t.objects
        generations := t.generations
        palettes := t.palettes
        images := t.images
        reports := { (s.accepted a).reports with queue := t.reports.queue, events := t.reports.events } } ∧
      (s.session.mask.commit = false →
        t.reports.queue = s.reports.queue ++ [s.answer a false] ∧ t.reports.events = s.reports.events) ∧
      (s.session.mask.commit = true → s.reports.events = PendingEvents.empty → s.reports.queue.length ≤ 5 →
        t.reports.queue = s.reports.queue ++ [s.answer a false,
          .filled (eventReport s.unitAddress (.commit ⟨s.generations.generation + 1, s.tracker.frameCounter⟩))] ∧
        t.reports.events = PendingEvents.empty) ∧
      (s.session.mask.commit = true → 6 ≤ s.reports.queue.length →
        t.reports.queue = s.reports.queue ++ [s.answer a false] ∧
        t.reports.events =
          { s.reports.events with commit := some ⟨s.generations.generation + 1, s.tracker.frameCounter⟩ })

/-- R29: CANCEL_COMMIT returns an armed commit to IDLE, drops its target and touches nothing else; in IDLE it is refused with
NOT_ARMED. Either way it answers the commit state and target before it and the frame counter; a payload is answered LENGTH. -/
def Obligations.CancelCommitWithdrawsTheCommit : Prop :=
  ∀ (s : State) (seq : Byte), s.Expects seq →
    let ack (st : Status) : Ack := ⟨seq, codeCancelCommit, st,
      [s.generations.commit.code] ++ be16 s.generations.commit.targetValue ++ be16 s.tracker.frameCounter.toNat⟩
    (s.generations.commit ≠ .idle → exec (.cancelCommit .unicast seq []) s =
      .next { s.accepted (ack .ok) with generations := { s.generations with commit := .idle } }) ∧
    (s.generations.commit = .idle → exec (.cancelCommit .unicast seq []) s = .next (s.accepted (ack .notArmed))) ∧
    ∀ p : List Byte, p ≠ [] →
      exec (.cancelCommit .unicast seq p) s = .next (s.accepted ⟨seq, codeCancelCommit, .length, []⟩)

/-- R39: SET_MODE writes the staged mode and the staged fill colour, sets staged-dirty and answers both; refused with ARMED while
armed, then with RANGE for a mode above 2 or a component above 1023. -/
def Obligations.SetModeStagesModeAndFill : Prop :=
  ∀ (s : State) (seq m : Byte) (c : Colour), s.Expects seq → c.c0 < 65536 → c.c1 < 65536 → c.c2 < 65536 →
    let p := m :: (be16 c.c0 ++ be16 c.c1 ++ be16 c.c2)
    (∀ mode, s.generations.commit = .idle → c.InRange → m = mode.code →
      exec (.setMode .unicast seq p) s = .next { s.accepted ⟨seq, codeSetMode, .ok, p⟩ with
        generations := { s.generations with stagedMode := mode, stagedFill := c, stagedDirty := true } }) ∧
    (s.generations.commit ≠ .idle →
      exec (.setMode .unicast seq p) s = .next (s.accepted ⟨seq, codeSetMode, .armed, []⟩)) ∧
    (s.generations.commit = .idle → 2 < m.toNat ∨ ¬c.InRange →
      exec (.setMode .unicast seq p) s = .next (s.accepted ⟨seq, codeSetMode, .range, []⟩))

/-- R40, R41: DISCARD, in IDLE, makes the staged side a copy of the active one, empties the pending list, sets every staged count to
the active count, returns RETIRING images to READY, clears staged-dirty, and answers the generation number and how many images
it returned; refused with ARMED while armed. -/
def Obligations.DiscardCopiesTheActiveSide : Prop :=
  ∀ (s : State) (seq : Byte), s.Expects seq →
    (s.generations.commit = .idle → ∃ t, exec (.discard .unicast seq []) s = .next t ∧
      (∀ i, t.objects.stagedAt i = (s.objects.activeAt i).map ActiveObject.fields) ∧
      t.objects.active = s.objects.active ∧
      (∀ h, h < 128 → t.images.entry h = { s.images.entry h with
        stagedRefs := (s.images.entry h).activeRefs
        image := (s.images.entry h).image.map fun im => if im.phase = .retiring then { im with phase := .ready } else im }) ∧
      t = { s.accepted ⟨seq, codeDiscard, .ok,
          be16 s.generations.generation.toNat ++ [u8 (s.images.handlesWith ImageEntry.isRetiring)]⟩ with
        objects := t.objects
        images := { s.images with directory := t.images.directory }
        palettes := { s.palettes with writes := [] }
        generations := { s.generations with
          stagedMode := s.generations.activeMode
          stagedFill := s.generations.activeFill
          stagedDirty := false } }) ∧
    (s.generations.commit ≠ .idle →
      exec (.discard .unicast seq []) s = .next (s.accepted ⟨seq, codeDiscard, .armed, []⟩))

/-- R33, R42 to R44: CLEAR_ALL, unicast or broadcast, in any commit state, clears the staged side and retires or frees every image.
While LOCKED it then arms NEXT; otherwise the apply of the cleared tables is made at once, with its COMMIT event. Unicast it answers
the commit state, the generation number, and the images it made RETIRING and FREE; a broadcast answers nothing. That the COMMIT
event stands behind the acknowledgement is log entry 13. -/
def Obligations.ClearAllClearsAndArmsOrApplies : Prop :=
  ∀ (s : State) (seq : Byte),
    let counts := [u8 (s.images.handlesWith ImageEntry.retiredByClear), u8 (s.images.handlesWith ImageEntry.freedByClear)]
    let a (state : Byte) (generation : Word16) : Ack := ⟨seq, codeClearAll, .ok, [state] ++ be16 generation.toNat ++ counts⟩
    let applied : CommitEvent := ⟨s.generations.generation + 1, s.tracker.frameCounter⟩
    (s.tracker.rasterState = .locked →
      (s.Expects seq → ∃ t, exec (.clearAll .unicast seq []) s = .next t ∧ s.Cleared t ∧
        t.generations.commit = .armedNext ∧
        t = { s.accepted (a 1 s.generations.generation) with
          objects := t.objects, generations := t.generations, palettes := t.palettes, images := t.images }) ∧
      (s.takesCommands = true → ∃ t, exec (.clearAll .broadcast seq []) s = .next t ∧ s.Cleared t ∧
        t.generations.commit = .armedNext ∧
        t = { s with objects := t.objects, generations := t.generations, palettes := t.palettes, images := t.images })) ∧
    (s.tracker.rasterState ≠ .locked →
      (s.Expects seq → ∃ t u, exec (.clearAll .unicast seq []) s = .next t ∧ s.Cleared u ∧ u.Applied t ∧
        let ack := a 0 (s.generations.generation + 1)
        t = { s.accepted ack with
          objects := t.objects, generations := t.generations, palettes := t.palettes, images := t.images
          reports := { (s.accepted ack).reports with queue := t.reports.queue, events := t.reports.events } } ∧
        (s.session.mask.commit = false →
          t.reports.queue = s.reports.queue ++ [s.answer ack false] ∧ t.reports.events = s.reports.events) ∧
        (s.session.mask.commit = true → s.reports.events = PendingEvents.empty → s.reports.queue.length ≤ 5 →
          t.reports.queue = s.reports.queue ++ [s.answer ack false, .filled (eventReport s.unitAddress (.commit applied))] ∧
          t.reports.events = PendingEvents.empty) ∧
        (s.session.mask.commit = true → 6 ≤ s.reports.queue.length →
          t.reports.queue = s.reports.queue ++ [s.answer ack false] ∧
          t.reports.events = { s.reports.events with commit := some applied })) ∧
      (s.takesCommands = true → ∃ t u, exec (.clearAll .broadcast seq []) s = .next t ∧ s.Cleared u ∧ u.Applied t ∧
        t = { s with
          objects := t.objects, generations := t.generations, palettes := t.palettes, images := t.images
          reports := s.raised [.commit applied] }))

/-- R30 to R33, R36: a FRAME_START taken in any raster state makes the apply exactly when the commit state is ARMED_NEXT, or
ARMED_AT with the counter after the increment as its target, and then raises a COMMIT event with the new generation number and
that counter; any other leaves both generations, the palettes and the images, and raises none. -/
def Obligations.FrameStartAppliesWhenDue : Prop :=
  ∀ s : State, s.receiving = true → s.palettes.Legal →
    let due := s.generations.commit = .armedNext ∨ s.generations.commit = .armedAt (s.tracker.frameCounter + 1)
    ∃ t, exec .frameStart s = .next t ∧ (due → s.Applied t) ∧
      (¬due → t.objects = s.objects ∧ t.generations = s.generations ∧ t.palettes = s.palettes ∧ t.images = s.images) ∧
      t.session = s.session ∧ t.reports.relay = s.reports.relay ∧ t.retSent = s.retSent ∧
      (s.filter.reception = .none → s.tracker.rasterState = .acquiring ∨
          s.tracker.rasterState = .locked ∧ s.tracker.inFrame = false →
        (due → t.reports = s.raised [.commit ⟨s.generations.generation + 1, s.tracker.frameCounter + 1⟩]) ∧
        (¬due → t.reports = s.reports))

/-! ### Image store -/

/-- R74, R75: CREATE_IMAGE, every check passed, makes the entry LOADING with the carried shape, takes its pages from the head of the
free page list in order, and leaves every byte, every other entry and both counts. Refused, it changes nothing: RANGE for the
handle, IN_USE, RANGE for the shape, NO_SPACE, in that order. -/
def Obligations.CreateImageTakesPagesFromTheHead : Prop :=
  ∀ (s : State) (seq : Byte) (p : List Byte), s.Expects seq → p.length = 6 →
    let h := byteAt p 0
    let width := u16At p 1
    let height := u16At p 3
    let depth := byteAt p 5
    let rowLength := (width * depth + 7) / 8
    let size := rowLength * height
    let pages := (size + 127) / 128
    let inRange := (1 ≤ width ∧ width ≤ 256) ∧ (1 ≤ height ∧ height ≤ 256) ∧ (depth = 4 ∨ depth = 8)
    let refusal (st : Status) (d : List Byte) :=
      exec (.createImage .unicast seq p) s = .next (s.accepted ⟨seq, codeCreateImage, st, d⟩)
    (h < 128 → s.images.imageAt h = none → inRange → pages ≤ s.images.freePages.length →
      ∃ t, exec (.createImage .unicast seq p) s = .next t ∧
        (∀ k, k < 128 → t.images.entry k = if k = h then
            { s.images.entry h with
              image := some ⟨.loading, width, height, depth, rowLength, size, s.images.freePages.take pages, 0⟩ }
          else s.images.entry k) ∧
        t = { s.accepted ⟨seq, codeCreateImage, .ok,
            [u8 h] ++ be32 size ++ be16 pages ++ be16 (s.images.freePages.length - pages)⟩ with
          images := { s.images with
            directory := t.images.directory
            freePages := s.images.freePages.drop pages } }) ∧
    (128 ≤ h → refusal .range []) ∧
    (h < 128 → s.images.imageAt h ≠ none → refusal .inUse [u8 h, (s.images.entry h).stateCode]) ∧
    (h < 128 → s.images.imageAt h = none → ¬inRange → refusal .range []) ∧
    (h < 128 → s.images.imageAt h = none → inRange → s.images.freePages.length < pages →
      refusal .noSpace (be16 pages ++ be16 s.images.freePages.length))

/-- R76, R77: LOAD_IMAGE at the load cursor of a LOADING image writes its bytes in order where R70 puts them and nowhere else, moves
the cursor, and makes the image READY when the cursor reaches the size. Refused, it writes nothing and answers the cursor and
the state: RANGE for the handle, NOT_READY, OFFSET, RANGE past the size, in that order. -/
def Obligations.LoadImageWritesAtTheCursor : Prop :=
  ∀ (s : State) (seq b : Byte) (offset : Nat) (bytes : List Byte), s.Expects seq → offset < 65536 →
    1 ≤ bytes.length → bytes.length ≤ 240 →
    let h := b.toNat
    let c := Instr.loadImage .unicast seq (b :: (be16 offset ++ bytes))
    let data (cursor : Nat) (state : Byte) : List Byte := [b] ++ be32 cursor ++ [state]
    let refusal (st : Status) (d : List Byte) := exec c s = .next (s.accepted ⟨seq, codeLoadImage, st, d⟩)
    (∀ im, h < 128 → s.images.imageAt h = some im → im.phase = .loading → offset = im.cursor →
      offset + bytes.length ≤ im.size → s.images.Legal →
      let ready := offset + bytes.length = im.size
      ∃ t, exec c s = .next t ∧
        (∀ k v, bytes[k]? = some v → imageByte t.images.memory im.pageMap (offset + k) = v) ∧
        (∀ a, (∀ k, k < bytes.length → imageAddress im.pageMap (offset + k) ≠ some a) →
          Memory.read t.images.memory a = Memory.read s.images.memory a) ∧
        (∀ k, k < 128 → t.images.entry k = if k = h then
            { s.images.entry h with image := some { im with
                cursor := offset + bytes.length
                phase := if ready then .ready else .loading } }
          else s.images.entry k) ∧
        t = { s.accepted ⟨seq, codeLoadImage, .ok, data (offset + bytes.length) (if ready then 2 else 1)⟩ with
          images := { s.images with memory := t.images.memory, directory := t.images.directory } }) ∧
    (128 ≤ h → refusal .range (data 0 0)) ∧
    (h < 128 → s.images.imageAt h = none → refusal .notReady (data 0 0)) ∧
    (∀ im, h < 128 → s.images.imageAt h = some im →
      (im.phase ≠ .loading → refusal .notReady (data im.cursor im.phase.code)) ∧
      (im.phase = .loading → offset ≠ im.cursor → refusal .offset (data im.cursor 1)) ∧
      (im.phase = .loading → offset = im.cursor → im.size < offset + bytes.length → refusal .range (data im.cursor 1)))

/-- R79: RESTART_IMAGE returns a READY image that no record names to LOADING with cursor 0 and leaves its shape, its pages, its counts
and every byte; refused, it changes nothing: LENGTH, RANGE, IN_DISPLAY, IN_USE, NOT_READY in that order. -/
def Obligations.RestartImageReturnsToLoading : Prop :=
  ∀ (s : State) (seq : Byte) (p : List Byte), s.Expects seq →
    let h := byteAt p 0
    let e := s.images.entry h
    let refusal (st : Status) := exec (.restartImage .unicast seq p) s = .next (s.accepted ⟨seq, codeRestartImage, st, []⟩)
    (p.length ≠ 1 → refusal .length) ∧
    (p.length = 1 →
      (128 ≤ h → refusal .range) ∧
      (h < 128 → 0 < e.activeRefs → refusal .inDisplay) ∧
      (h < 128 → e.activeRefs = 0 → 0 < e.stagedRefs → refusal .inUse) ∧
      (h < 128 → e.activeRefs = 0 → e.stagedRefs = 0 → (∀ im, e.image = some im → im.phase ≠ .ready) → refusal .notReady) ∧
      ∀ im, h < 128 → e.activeRefs = 0 → e.stagedRefs = 0 → e.image = some im → im.phase = .ready →
        ∃ t, exec (.restartImage .unicast seq p) s = .next t ∧
          (∀ k, k < 128 → t.images.entry k =
            if k = h then { e with image := some { im with phase := .loading, cursor := 0 } } else s.images.entry k) ∧
          t = { s.accepted ⟨seq, codeRestartImage, .ok, [u8 h] ++ be32 im.size ++ be32 0 ++ [1]⟩ with
            images := { s.images with directory := t.images.directory } })

/-- R80, R81: RELEASE_IMAGE retires a READY image that is still drawn, and frees a LOADING image or a READY one that is not,
its pages joining the tail of the free page list in page-map order; refused, it changes nothing: RANGE, IN_USE with the count,
NOT_READY. A LOADING image has no active reference (R73). -/
def Obligations.ReleaseImageRetiresOrFrees : Prop :=
  ∀ (s : State) (seq b : Byte), s.Expects seq →
    let h := b.toNat
    let e := s.images.entry h
    let refusal (st : Status) (d : List Byte) :=
      exec (.releaseImage .unicast seq [b]) s = .next (s.accepted ⟨seq, codeReleaseImage, st, d⟩)
    (∀ im, h < 128 → e.stagedRefs = 0 → e.image = some im → im.phase = .ready → 0 < e.activeRefs →
      ∃ t, exec (.releaseImage .unicast seq [b]) s = .next t ∧
        (∀ k, k < 128 → t.images.entry k =
          if k = h then { e with image := some { im with phase := .retiring } } else s.images.entry k) ∧
        t = { s.accepted ⟨seq, codeReleaseImage, .ok, [b, 3] ++ be16 s.images.freePages.length⟩ with
          images := { s.images with directory := t.images.directory } }) ∧
    (∀ im, h < 128 → e.stagedRefs = 0 → e.image = some im → im.phase = .ready ∨ im.phase = .loading → e.activeRefs = 0 →
      ∃ t, exec (.releaseImage .unicast seq [b]) s = .next t ∧
        (∀ k, k < 128 → t.images.entry k = if k = h then ImageEntry.free else s.images.entry k) ∧
        t = { s.accepted ⟨seq, codeReleaseImage, .ok,
            [b, 0] ++ be16 (s.images.freePages.length + im.pageMap.length)⟩ with
          images := { s.images with
            directory := t.images.directory
            freePages := s.images.freePages ++ im.pageMap } }) ∧
    (128 ≤ h → refusal .range []) ∧
    (h < 128 → 0 < e.stagedRefs → refusal .inUse [b, u8 e.stagedRefs]) ∧
    (h < 128 → e.stagedRefs = 0 → (∀ im, e.image = some im → im.phase = .retiring) → refusal .notReady [])

/-! ### Palettes -/

/-- R90 to R92: WRITE_PALETTE takes 1 to 32 entries into the pending list: a pair already pending keeps its place and takes the new
value, a new pair joins the tail in index order, every other write stands, the active palettes stand, and staged-dirty is set.
Refused, it changes nothing: ARMED, RANGE, FULL in that order. -/
def Obligations.WritePaletteJoinsThePendingList : Prop :=
  ∀ (s : State) (seq : Byte) (p : List Byte), s.Expects seq → lengthFits codeWritePalette p = true → s.palettes.Legal →
    let palette := byteAt p 0
    let first := byteAt p 1
    let n := (p.length - 2) / 7
    let entry (k : Nat) : PaletteEntry :=
      ⟨⟨u16At p (2 + 7 * k), u16At p (4 + 7 * k), u16At p (6 + 7 * k)⟩, byteAt p (8 + 7 * k)⟩
    let inRange := palette < 8 ∧ first + n - 1 ≤ 255 ∧ ∀ k, k < n → (entry k).InRange
    let l := s.palettes.writes
    let fresh := (List.range n).filter fun k => l.all fun w => !(w.palette == palette && w.index == first + k)
    let data (length added replaced : Nat) : List Byte :=
      [u8 palette, u8 first] ++ be16 length ++ [u8 added, u8 replaced]
    let refusal (st : Status) (d : List Byte) :=
      exec (.writePalette .unicast seq p) s = .next (s.accepted ⟨seq, codeWritePalette, st, d⟩)
    (s.generations.commit = .idle → inRange → l.length + fresh.length ≤ 256 →
      ∃ t, exec (.writePalette .unicast seq p) s = .next t ∧
        (t.palettes.writes.map fun w => (w.palette, w.index)) =
          (l.map fun w => (w.palette, w.index)) ++ fresh.map (fun k => (palette, first + k)) ∧
        (∀ w ∈ t.palettes.writes, (∃ k, k < n ∧ w = ⟨palette, first + k, entry k⟩) ∨
          (w ∈ l ∧ ∀ k, k < n → ¬(w.palette = palette ∧ w.index = first + k))) ∧
        t = { s.accepted ⟨seq, codeWritePalette, .ok, data (l.length + fresh.length) fresh.length (n - fresh.length)⟩ with
          palettes := { s.palettes with writes := t.palettes.writes }
          generations := { s.generations with stagedDirty := true } }) ∧
    (s.generations.commit ≠ .idle → refusal .armed (data l.length 0 0)) ∧
    (s.generations.commit = .idle → ¬inRange → refusal .range (data l.length 0 0)) ∧
    (s.generations.commit = .idle → inRange → 256 < l.length + fresh.length → refusal .full (data l.length fresh.length 0))

/-! ### Raster tracker -/

/-- R46, R66, R101, R102, R110, R111, R113: what a FRAME_START makes of the tracker in each raster state, inside a frame or not,
whether the compositor composites the frame it begins, and the events it raises: a RASTER event for each raster state entered,
with the counter after the increment; a FRAME_RESTART latches the cut frame's summary and raises two, of DISRUPTED and of
ACQUIRING. The COMMIT event of an apply (R33) and the LINK event of a packet it cuts (R131) follow. Two points are the model's
choice: the order between the blocks (log entry 13), and that the LINK event carries the counter after the increment (log entry
25). -/
def Obligations.FrameStartMovesTheRasterState : Prop :=
  ∀ s : State, s.receiving = true →
    let r := s.tracker
    let begun : Tracker := { r with
      inFrame := true, inLine := false, linesBegun := 0, pixelsInLine := 0, lengthMark := none, irregular := false
      frameCounter := r.frameCounter + 1 }
    ∃ t, exec .frameStart s = .next t ∧
      let raises (l : List Event) : Prop :=
        s.filter.Legal → t.reports = s.raised (l ++ s.commitEvents ++ s.cutEvents (r.frameCounter + 1))
      (r.rasterState = .noSignal →
        t.tracker = { begun with rasterState := .acquiring, candidate := none, matchCount := 0 } ∧
        raises [.raster ⟨.acquiring, none, s.lastFault, r.frameCounter + 1⟩]) ∧
      (r.rasterState = .acquiring → r.inFrame = false → t.tracker = begun) ∧
      (r.rasterState = .acquiring → r.inFrame = true → t.tracker = { begun with matchCount := 0 }) ∧
      (r.rasterState = .acquiring → raises []) ∧
      (r.rasterState = .disrupted →
        t.tracker = { begun with rasterState := .acquiring, candidate := r.locked, matchCount := 1, locked := none } ∧
        raises [.raster ⟨.acquiring, none, s.lastFault, r.frameCounter + 1⟩]) ∧
      (r.rasterState = .locked → r.inFrame = false → t.tracker = begun ∧
        t.compositor.compositing = decide (t.generations.activeMode ≠ .pass) ∧ raises []) ∧
      (r.rasterState = .locked → r.inFrame = true →
        t.tracker = { begun with
          rasterState := .acquiring, candidate := r.locked, matchCount := 1, locked := none
          fault := some ⟨.frameRestart, r.frameCounter, if r.inLine = true then r.linesBegun - 1 else r.linesBegun⟩ } ∧
        (s.compositor.compositing = true → t.compositor.lastFrame = ⟨s.compositor.working.linesTruncated,
          s.compositor.working.firstLine, s.compositor.working.recordsOmitted, r.frameCounter, true⟩ ∧
          t.compositor.working = WorkingSummary.zero) ∧
        raises (s.frameEvents true ++
          [.raster ⟨.disrupted, r.locked, some .frameRestart, r.frameCounter + 1⟩,
            .raster ⟨.acquiring, none, some .frameRestart, r.frameCounter + 1⟩])) ∧
      (r.rasterState ≠ .locked ∨ r.inFrame = true → t.compositor.compositing = false)

/-- R47, R66, R107 to R109, R113: in LOCKED each symbol that meets a row of the fault table moves the tracker to DISRUPTED with the
geometry kept, writes the fault record from the counter and the position before the symbol, stops compositing, latching the
frame's summary as cut short and zeroing the working one, and raises the TRUNCATION event of a frame with lines truncated and the
RASTER event of the fault; the LINK event of a packet that the symbol cuts follows (log entry 13). (FRAME_START inside a frame
stands in the statement before this one.) -/
def Obligations.LockedSymbolsAreChecked : Prop :=
  ∀ (s : State) (g : Geometry), s.receiving = true → s.CompositorLegal → s.tracker.rasterState = .locked →
    s.tracker.locked = some g →
    let r := s.tracker
    let cuts := s.cutEvents r.frameCounter
    let faultedAnd (link : List Event) (c : Instr) (k : FaultKind) : Prop := ∃ t, exec c s = .next t ∧ t.tracker.rasterState = .disrupted ∧
      t.tracker.locked = some g ∧ t.tracker.frameCounter = r.frameCounter ∧
      t.tracker.fault = some ⟨k, r.frameCounter, if r.inLine = true then r.linesBegun - 1 else r.linesBegun⟩ ∧
      t.compositor.compositing = false ∧ t.compositor.candidates = [] ∧
      (s.compositor.compositing = true → t.compositor.lastFrame = ⟨s.compositor.working.linesTruncated,
        s.compositor.working.firstLine, s.compositor.working.recordsOmitted, r.frameCounter, true⟩ ∧
        t.compositor.working = WorkingSummary.zero) ∧
      (s.filter.Legal → s.HoldingLegal → t.reports = s.raised (s.frameEvents true ++
        [.raster ⟨.disrupted, some g, some k, r.frameCounter⟩] ++ link))
    let faulted := faultedAnd cuts
    (r.inLine = true →
      faulted .packetStart .packetInLine ∧ (∀ b, faultedAnd [] (.packetByte b) .structural) ∧ faulted .packetEnd .structural ∧
      faulted .lineStart .structural ∧ faulted .frameEnd .structural) ∧
    (r.inFrame = false → faulted .lineStart .structural ∧ faulted .frameEnd .structural) ∧
    (r.inFrame = true → r.inLine = false → g.h ≤ r.linesBegun → faulted .lineStart .extraLine) ∧
    (r.inLine = false → (∀ a b c, faulted (.pixel a b c) .structural) ∧ faulted .lineEnd .structural) ∧
    (r.inLine = true → g.w ≤ r.pixelsInLine → ∀ a b c, faulted (.pixel a b c) .longLine) ∧
    (r.inLine = true → r.pixelsInLine < g.w → faulted .lineEnd .shortLine) ∧
    (r.inFrame = true → r.inLine = false → r.linesBegun < g.h → faulted .frameEnd .shortFrame)

/-- R65, R100, R103, R106: in every raster state each symbol moves the position by the table of R100, and no symbol but a FRAME_START
moves the frame counter; raster symbols leave the session, the tables, the palettes and the images; in NO_SIGNAL and DISRUPTED
nothing is judged. In LOCKED a symbol of a good frame, a packet symbol outside every line, inside a frame or not, and an IDLE
anywhere are no fault (R107): the state stays LOCKED, the geometry and the fault record are kept, and no RASTER event is raised;
the one event is the LINK event of an open packet that the symbol cuts. (What the PACKET_END of a held packet reports is
PacketEndDecidesTheHeldPacket's.) The FRAME_END of a good composited frame latches its summary as complete, zeroes the working one
and raises the TRUNCATION event of a frame with lines truncated; the FRAME_END of a frame that is not composited leaves both
summaries. That this TRUNCATION event comes behind the LINK event is log entry 13. -/
def Obligations.SymbolsMoveThePosition : Prop :=
  ∀ s : State, s.receiving = true → s.tracker.Legal →
    let r := s.tracker
    let moves (c : Instr) (inFrame inLine : Bool) (lines pixels : Nat) : Prop := ∃ t, exec c s = .next t ∧
      (t.tracker.inFrame = inFrame ∧ t.tracker.inLine = inLine ∧ t.tracker.linesBegun = lines ∧
        t.tracker.pixelsInLine = pixels) ∧
      t.tracker.frameCounter = r.frameCounter ∧
      (r.rasterState = .noSignal ∨ r.rasterState = .disrupted →
        t.tracker.rasterState = r.rasterState ∧ t.tracker.fault = r.fault ∧ t.tracker.locked = r.locked) ∧
      ((rasterOf c).isSome = true → t.session = s.session ∧ t.objects = s.objects ∧ t.generations = s.generations ∧
        t.palettes = s.palettes ∧ t.images = s.images)
    let goodAnd (l : List Event) (c : Instr) : Prop := ∃ t, exec c s = .next t ∧ t.tracker.rasterState = .locked ∧
      t.tracker.locked = r.locked ∧ t.tracker.fault = r.fault ∧
      (s.filter.Legal → c ≠ .packetEnd ∨ s.filter.reception ≠ .holding → t.reports = s.raised (s.cutBy c ++ l))
    let good := goodAnd []
    moves .lineStart r.inFrame true (min 4097 (r.linesBegun + 1)) 0 ∧
    (∀ a b c, moves (.pixel a b c) r.inFrame r.inLine r.linesBegun
      (if r.inLine = true then min 4097 (r.pixelsInLine + 1) else r.pixelsInLine)) ∧
    moves .lineEnd r.inFrame false r.linesBegun r.pixelsInLine ∧
    moves .frameEnd false (if r.inFrame = true then false else r.inLine) r.linesBegun r.pixelsInLine ∧
    moves .packetStart r.inFrame r.inLine r.linesBegun r.pixelsInLine ∧
    (∀ b, moves (.packetByte b) r.inFrame r.inLine r.linesBegun r.pixelsInLine) ∧
    moves .packetEnd r.inFrame r.inLine r.linesBegun r.pixelsInLine ∧
    moves .idle r.inFrame r.inLine r.linesBegun r.pixelsInLine ∧
    (s.compositor.compositing = false → ∃ t, exec .frameEnd s = .next t ∧ t.compositor = s.compositor) ∧
    ∀ g, r.rasterState = .locked → r.locked = some g →
      (r.inFrame = true →
        (r.inLine = false → r.linesBegun < g.h → good .lineStart) ∧
        (∀ a b c, r.inLine = true → r.pixelsInLine < g.w → good (.pixel a b c)) ∧
        (r.inLine = true → r.pixelsInLine = g.w → good .lineEnd) ∧
        (r.inLine = false → r.linesBegun = g.h → goodAnd (s.frameEvents false) .frameEnd ∧ ∃ t, exec .frameEnd s = .next t ∧
          (s.compositor.compositing = true → t.compositor = ⟨false, [], WorkingSummary.zero, s.summary false⟩))) ∧
      (r.inLine = false → good .packetStart ∧ (∀ b, good (.packetByte b)) ∧ good .packetEnd) ∧
      good .idle

/-- R104, R105, R113: in ACQUIRING each symbol of a frame is judged by the table of R104 until the first that fails, whose irregular
mark stands through the later symbols; the frame length mark takes the pixel count of the first LINE_END that passes and stands
through every other symbol; a stray raster symbol between frames sets the match count to 0, and a packet symbol or an IDLE there
leaves it; and the FRAME_END updates the candidate and the count and locks when the count reaches 2. The lock alone raises a
RASTER event, of LOCKED with the geometry; the LINK event of a packet that the FRAME_END cuts follows (log entry 13). (What the
PACKET_END of a held packet reports is PacketEndDecidesTheHeldPacket's.) -/
def Obligations.MeasuredFramesLock : Prop :=
  ∀ s : State, s.receiving = true → s.tracker.Legal → s.tracker.rasterState = .acquiring →
    let r := s.tracker
    let judged (c : Instr) (bad : Prop) : Prop := ∃ t, exec c s = .next t ∧ (t.tracker.irregular = true ↔ bad) ∧
      t.tracker.rasterState = .acquiring ∧ t.tracker.candidate = r.candidate ∧ t.tracker.matchCount = r.matchCount
    let ended (state : RasterState) (candidate : Option Geometry) (count : Nat) (locked : Option Geometry) (l : List Event) :
        Prop :=
      ∃ t, exec .frameEnd s = .next t ∧ t.tracker.rasterState = state ∧ t.tracker.candidate = candidate ∧
        t.tracker.matchCount = count ∧ t.tracker.locked = locked ∧
        (s.filter.Legal → s.CompositorLegal → t.reports = s.raised (l ++ s.cutEvents r.frameCounter))
    (r.inFrame = true → r.irregular = false →
      judged .lineStart (r.inLine = true ∨ 4096 ≤ r.linesBegun) ∧
      (∀ a b c, judged (.pixel a b c) (r.inLine = false ∨ 4096 ≤ r.pixelsInLine)) ∧
      judged .lineEnd (r.inLine = false ∨ r.pixelsInLine < 16 ∨ 4096 < r.pixelsInLine ∨
        ∃ m, r.lengthMark = some m ∧ r.pixelsInLine ≠ m) ∧
      judged .packetStart (r.inLine = true) ∧ (∀ b, judged (.packetByte b) (r.inLine = true)) ∧
      judged .packetEnd (r.inLine = true) ∧ judged .idle False) ∧
    (∀ c, (symbolOf c).isSome = true → c ≠ .frameEnd → ∃ t, exec c s = .next t ∧
      t.tracker.rasterState = .acquiring ∧ t.tracker.candidate = r.candidate ∧
      t.tracker.lengthMark = (if c = .lineEnd ∧ r.inFrame = true ∧ r.irregular = false ∧ r.inLine = true ∧
        16 ≤ r.pixelsInLine ∧ r.pixelsInLine ≤ 4096 ∧ r.lengthMark = none then some r.pixelsInLine else r.lengthMark) ∧
      (r.inFrame = true → r.irregular = true → t.tracker.irregular = true) ∧
      (r.inFrame = true ∨ rasterOf c = none → t.tracker.matchCount = r.matchCount) ∧
      (s.filter.Legal → c ≠ .packetEnd ∨ s.filter.reception ≠ .holding → t.reports = s.raised (s.cutBy c))) ∧
    (r.inFrame = false → ∀ c, c = .lineStart ∨ (∃ x y z, c = .pixel x y z) ∨ c = .lineEnd ∨ c = .frameEnd →
      ∃ t, exec c s = .next t ∧ t.tracker.matchCount = 0 ∧ t.tracker.candidate = r.candidate) ∧
    (r.inFrame = true → r.irregular = true ∨ r.inLine = true ∨ r.linesBegun < 8 → ended .acquiring r.candidate 0 none []) ∧
    ∀ w, r.inFrame = true → r.irregular = false → r.inLine = false → 8 ≤ r.linesBegun → r.lengthMark = some w →
      (r.candidate ≠ some ⟨w, r.linesBegun⟩ → ended .acquiring (some ⟨w, r.linesBegun⟩) 1 none []) ∧
      (r.candidate = some ⟨w, r.linesBegun⟩ → r.matchCount = 0 → ended .acquiring r.candidate 1 none []) ∧
      (r.candidate = some ⟨w, r.linesBegun⟩ → r.matchCount = 1 → ended .locked r.candidate 2 r.candidate
        [.raster ⟨.locked, r.candidate, s.lastFault, r.frameCounter⟩])

/-! ### Line compositor -/

/-- R47, R59, R63: a PIXEL that arrives while the flag is clear leaves with its input value, in every frame that is not composited; a
PIXEL outside a line of a composited frame, and one past the locked width of its line (LONG_LINE), clears the flag and leaves with
its input value; and the value of a pixel passed unchanged does not reach the compositor's state. -/
def Obligations.PixelsPassUnchangedWhileFlagIsClear : Prop :=
  ∀ (s : State) (a b c : Nat), s.receiving = true → s.CompositorLegal →
    let passes : Prop := ∃ t, exec (.pixel a b c) s = .next t ∧ t.compositor.compositing = false ∧
      t.rasterStream = s.rasterStream ++ [.symbol (.pixel ⟨a, b, c⟩)] ∧
      ∀ a' b' c', ∃ t', exec (.pixel a' b' c') s = .next t' ∧ t'.compositor = t.compositor ∧ t'.tracker = t.tracker
    (s.compositor.compositing = false → passes) ∧
    (s.generations.activeMode = .pass ∨ s.tracker.rasterState ≠ .locked → passes) ∧
    (s.compositor.compositing = true → s.tracker.inLine = false → passes) ∧
    ∀ g, s.compositor.compositing = true → s.tracker.inLine = true → s.tracker.locked = some g →
      g.w ≤ s.tracker.pixelsInLine → passes

/-- R48, R59 to R62: a pixel of a good composited line leaves with the base value of its mode, over which the candidates whose span
covers its column are blended in reverse priority order, the farthest first: each reads the palette entry of the index its image
holds at the source column and row (R60, R61) and, with effective alpha a = floor(alpha × opacity / 15), leaves the value as it is
where a is 0 and otherwise makes each component floor((a × c + (15 − a) × prev + 7) / 15) (R62). So an uncovered column keeps the
base value, an opaque nearest candidate shows its own colour, and every blend lies between the two colours and within 0 to
1023. -/
def Obligations.CompositedPixelsAreBlended : Prop :=
  (∀ (s : State) (g : Geometry) (a b c : Nat), s.receiving = true → s.compositor.compositing = true →
    s.tracker.rasterState = .locked → s.tracker.locked = some g → s.tracker.inLine = true → s.tracker.pixelsInLine < g.w →
    let x := s.tracker.pixelsInLine
    let base : Colour := if s.generations.activeMode = .backdrop then s.generations.activeFill else ⟨a, b, c⟩
    let index (k : Candidate) (o : ActiveObject) (im : Image) : Nat :=
      let q := (((x : Int) - o.ex) / (o.fields.scaleX : Int)).toNat
      let u := if o.fields.flipH = true then im.width - 1 - q else q
      let byte (n : Nat) : Nat := match im.pageMap[n / 128]? with
        | some page => (Memory.read s.images.memory (page.val * 128 + n % 128)).toNat
        | none => 0
      if im.depth = 8 then byte (k.sourceRow * im.rowLength + u)
      else o.fields.row * 16 + if u % 2 = 0 then byte (k.sourceRow * im.rowLength + u / 2) / 16
        else byte (k.sourceRow * im.rowLength + u / 2) % 16
    let shown (e : PaletteEntry) (opacity : Nat) (prev : Colour) : Colour :=
      let a := e.alpha * opacity / 15
      let mix (c prev : Nat) : Nat := (a * c + (15 - a) * prev + 7) / 15
      if a = 0 then prev else ⟨mix e.colour.c0 prev.c0, mix e.colour.c1 prev.c1, mix e.colour.c2 prev.c2⟩
    let visit (k : Candidate) (prev : Colour) : Colour :=
      if k.xa ≤ x ∧ x < k.xb then
        match s.objects.activeAt k.objectId with
        | none => prev
        | some o =>
          match s.images.imageAt o.fields.image with
          | none => prev
          | some im => shown (s.palettes.entryAt o.fields.palette (index k o im)) o.fields.opacity prev
      else prev
    ∃ t v, exec (.pixel a b c) s = .next t ∧ t.rasterStream = s.rasterStream ++ [.symbol (.pixel v)] ∧
      t.compositor = s.compositor ∧ v = s.compositor.candidates.foldr visit base ∧
      ((∀ k ∈ s.compositor.candidates, ¬(k.xa ≤ x ∧ x < k.xb)) → v = base) ∧
      ∀ k rest o im, s.compositor.candidates = k :: rest → k.xa ≤ x → x < k.xb →
        s.objects.activeAt k.objectId = some o → s.images.imageAt o.fields.image = some im → o.fields.opacity = 15 →
        let e := s.palettes.entryAt o.fields.palette (index k o im)
        e.alpha = 15 → v = e.colour) ∧
  ∀ (e : PaletteEntry) (opacity : Nat) (prev : Colour), e.alpha ≤ 15 → opacity ≤ 15 →
    let between (c p q : Nat) : Prop := min c p ≤ q ∧ q ≤ max c p
    (e.alpha * opacity < 15 → blend e opacity prev = prev) ∧
    (e.alpha = 15 → opacity = 15 → blend e opacity prev = e.colour) ∧
    (between e.colour.c0 prev.c0 (blend e opacity prev).c0 ∧ between e.colour.c1 prev.c1 (blend e opacity prev).c1 ∧
      between e.colour.c2 prev.c2 (blend e opacity prev).c2) ∧
    (e.InRange → prev.InRange → (blend e opacity prev).InRange)

/-- R51 to R57, R64: at a good LINE_START of a composited frame the list is the longest prefix of the line's eligible records, in
priority order, of at most 12 records costing at most 2048; what it leaves out is counted; and no line leaves one of its
first 8 records out. -/
def Obligations.LineStartAdmitsThePrefix : Prop :=
  ∀ (s : State) (g : Geometry), s.receiving = true → s.compositor.compositing = true → s.tracker.rasterState = .locked →
    s.tracker.locked = some g → s.tracker.inFrame = true → s.tracker.inLine = false → s.tracker.linesBegun < g.h →
    s.tracker.linesBegun < 4097 →
    let y := s.tracker.linesBegun
    ∃ t all, exec .lineStart s = .next t ∧
      (∀ c, c ∈ all ↔ s.IsCandidate g.w y c) ∧ all.Pairwise (fun a b => before s a b = true) ∧
      t.compositor.candidates <+: all ∧ t.compositor.candidates.length ≤ 12 ∧ totalCost t.compositor.candidates ≤ 2048 ∧
      (∀ c, all[t.compositor.candidates.length]? = some c →
        t.compositor.candidates.length = 12 ∨ 2048 < totalCost t.compositor.candidates + c.cost) ∧
      (all.length = t.compositor.candidates.length → t.compositor.working = s.compositor.working) ∧
      (t.compositor.candidates.length < all.length → t.compositor.working =
        ⟨s.compositor.working.linesTruncated + 1, some (s.compositor.working.firstLine.getD y),
          min 65535 (s.compositor.working.recordsOmitted + (all.length - t.compositor.candidates.length))⟩) ∧
      (s.images.EntriesLegal → s.objects.RecordsInRange → min 8 all.length ≤ t.compositor.candidates.length)

/-! ### Packet filter -/

/-- R119, R121 to R123, R127 to R130: a PACKET_START opens a packet in HOLDING, itself held, or in UNEXAMINED inside a line or in an
unaddressed unit; a PACKET_BYTE of a held packet is held and counted, shows the kind, or is the 257th, at which all that was held
is released; of any other packet, and as a stray, it is passed. Held, released or passed, the symbol joins the stream behind all
that arrived before it, and nothing is lost or moved there; no table, palette or image and not the session is touched. A
PACKET_BYTE that is no fault (R107) and every IDLE leave the compositor and every report (R113, R131); a PACKET_START that is none
leaves the compositor, and its one event is the LINK event of the open packet it cuts. An IDLE is absorbed behind a waiting symbol and otherwise passes, and takes nothing from the stream. No command makes the hold queue grow
past 258 symbols, with a drain under way or not. One arriving symbol is one slot of FWD_OUT (log entry 5), in a drain too (log
entry 6); the byte count outside HOLDING is log entry 18. -/
def Obligations.PacketSymbolsAreHeldOrPassed : Prop :=
  ∀ s : State, s.receiving = true → s.filter.Legal →
    let f := s.filter
    let passes (t : State) (l : List FwdOutput) : Prop := t.contentStream = s.contentStream ++ l ∧ t.session = s.session ∧
      t.objects = s.objects ∧ t.generations = s.generations ∧ t.palettes = s.palettes ∧ t.images = s.images ∧
      t.retSent = s.retSent
    let noFault := s.tracker.inLine = false ∨ s.tracker.rasterState ≠ .locked
    let opens (r : Reception) (held : List QueuedSymbol) : Prop := ∃ t, exec .packetStart s = .next t ∧
      passes t [.symbol .packetStart] ∧
      (noFault → t.compositor = s.compositor ∧ t.reports = s.raised (s.cutEvents s.tracker.frameCounter)) ∧
      t.filter.reception = r ∧ t.filter.byteCount = 0 ∧ t.filter.kindKnown = .no ∧ heldPart t.filter.holdQueue = held
    let takes (b : Byte) (r : Reception) (count : Nat) (bytes : List Byte) : Prop :=
      ∃ t, exec (.packetByte b) s = .next t ∧ passes t [.symbol (.packetByte b)] ∧
        (noFault → t.compositor = s.compositor ∧ t.reports = s.reports) ∧
        t.filter.reception = r ∧ (r ≠ .unexamined → t.filter.byteCount = count) ∧
        heldBytes t.filter.holdQueue = bytes ∧ (r ≠ .holding → heldPart t.filter.holdQueue = []) ∧
        t.filter.crcTally = f.crcTally ∧ t.filter.truncTally = f.truncTally
    (s.addressed = true → s.tracker.inLine = false → opens .holding [⟨.packetStart, true⟩]) ∧
    (s.addressed = false ∨ s.tracker.inLine = true → opens .unexamined []) ∧
    (f.reception = .holding → f.byteCount = 0 → takes 0x43 .holding 1 [0x43]) ∧
    (∀ b, f.reception = .holding → f.byteCount = 0 → b ≠ 0x43 → takes b .unexamined 0 []) ∧
    (∀ b, f.reception = .holding → 0 < f.byteCount → f.byteCount < 256 →
      takes b .holding (f.byteCount + 1) (heldBytes f.holdQueue ++ [b])) ∧
    (∀ b, f.reception = .holding → f.byteCount = 256 → takes b .overlong 257 []) ∧
    (∀ b, f.reception ≠ .holding → takes b f.reception f.byteCount []) ∧
    (∃ t, exec .idle s = .next t ∧ passes t [] ∧ t.compositor = s.compositor ∧ t.reports = s.reports ∧ t.filter = { f with holdQueue := t.filter.holdQueue } ∧
      heldPart t.filter.holdQueue = heldPart f.holdQueue) ∧
    (f.holdQueue = [] → s.drains = [] →
      ∃ t, exec .idle s = .next t ∧ t.fwdSent = s.fwdSent ++ [.symbol .idle] ∧ t.filter = f) ∧
    (∀ e q, f.holdQueue = e :: q → ∃ t, exec .idle s = .next t ∧
      (e.held = false → t.filter = { f with holdQueue := q } ∧
        (s.drains = [] → t.fwdSent = s.fwdSent ++ [.symbol e.symbol])) ∧
      (e.held = true → t.fwdSent = s.fwdSent ++ [.symbol .idle] ∧ t.filter = f)) ∧
    ∀ c t, exec c s = .next t → t.filter.holdQueue.length ≤ 258

/-- R124 to R126, R131, R134: the PACKET_END of a held packet checks its length, its CRC and its destination in that order. A bad
packet passes unchanged, is counted in the truncation or the CRC tally and raises its LINK event, of cause TRUNCATED or CRC, and
nothing else happens; another unit's passes, a broadcast passes and its command is taken, this unit's own leaves as n + 2 IDLE
symbols and its command is taken: the row the packet spells, on the state as it stands. (With a drain under way a change of the
link state may stand between two symbols; ForwardLinkDrainsAndReturns says where.) -/
def Obligations.PacketEndDecidesTheHeldPacket : Prop :=
  ∀ s : State, s.receiving = true → s.filter.Legal → s.HoldingLegal → s.filter.reception = .holding →
    let bytes := heldBytes s.filter.holdQueue
    let n := bytes.length
    let fits := 8 ≤ n ∧ n = 6 + u16At bytes 4 + 2
    let crcMatches := crcBytes (bytes.take (n - 2)) = bytes.drop (n - 2)
    let dest := byteAt bytes 1 % 16
    let spelled (how : Addressing) : Instr :=
      commandOf how (bytes.getD 2 0) (bytes.getD 3 0) ((bytes.drop 6).take (u16At bytes 4))
    let streams (t : State) (l : List FwdOutput) : Prop :=
      t.symbolStream = l.filter FwdOutput.isSymbol ∧ (s.drains = [] → t.forwardStream = l)
    let passed := s.forwardStream ++ [.symbol .packetEnd]
    let crc := s.filter.crcTally
    let trunc := s.filter.truncTally
    let counted (t : State) (cause : LinkCause) (crc trunc : Nat) : Prop :=
      streams t passed ∧ t.filter.crcTally = crc ∧ t.filter.truncTally = trunc ∧
      t = { s with
        filter := t.filter, fwdSent := t.fwdSent, drains := t.drains, fwdOutUp := t.fwdOutUp
        reports := s.raised [.link ⟨cause, crc, trunc, s.tracker.frameCounter⟩] }
    ∃ t, exec .packetEnd s = .next t ∧ t.filter.reception = .none ∧ t.filter.byteCount = 0 ∧
      heldPart t.filter.holdQueue = [] ∧ t.tracker = s.tracker ∧ t.compositor = s.compositor ∧
      (s.drains = [] → t.drains = [] ∧ t.fwdOutUp = s.fwdOutUp) ∧
      (¬fits → counted t .truncated crc (min 65535 (trunc + 1))) ∧
      (fits → ¬crcMatches → counted t .crc (min 65535 (crc + 1)) trunc) ∧
      (fits → crcMatches → t.filter.crcTally = crc ∧ t.filter.truncTally = trunc ∧
        (dest = 15 → streams t passed ∧
          ∀ u, exec (spelled .broadcast) s = .next u →
            t = { u with filter := t.filter, fwdSent := t.fwdSent, drains := t.drains, fwdOutUp := t.fwdOutUp }) ∧
        (dest = s.unitAddress.toNat →
          streams t (s.fwdSent ++ (releasedPart s.filter.holdQueue).map (fun e => .symbol e.symbol) ++
            List.replicate (n + 2) (.symbol .idle)) ∧
          ∀ u, exec (spelled .unicast) s = .next u →
            t = { u with filter := t.filter, fwdSent := t.fwdSent, drains := t.drains, fwdOutUp := t.fwdOutUp }) ∧
        (dest ≠ 15 → dest ≠ s.unitAddress.toNat → streams t passed ∧
          t = { s with filter := t.filter, fwdSent := t.fwdSent, drains := t.drains, fwdOutUp := t.fwdOutUp }))

/-- R121 to R123, R127 to R129, R131, R132: a raster symbol, a PACKET_START or link down ends the open packet, and PACKET_END ends
one that is not held, or is a stray. In HOLDING or OVERLONG (at PACKET_END: in OVERLONG) the packet is counted as truncated once,
otherwise it is not; what was held is released in its order, with the ending symbol behind it, and nothing of it is executed: the
session stands, and so do the tables but for the apply of a FRAME_START. Among the events the command raises there is exactly one
LINK event where the packet is counted, with both tallies after the count and the frame counter, and none otherwise. Two points are
the model's choice: the byte count after the end (log entry 18), and that the LINK event of a packet that a FRAME_START cuts carries
the counter after the increment (log entry 25). -/
def Obligations.OpenPacketsEndCountedOnce : Prop :=
  ∀ s : State, s.receiving = true → s.filter.Legal →
    let tally (counted : Prop) [Decidable counted] : Nat :=
      if counted then min 65535 (s.filter.truncTally + 1) else s.filter.truncTally
    let ends (c : Instr) (counted : Prop) [Decidable counted] (t : State) : Prop := exec c s = .next t ∧
      t.filter.truncTally = tally counted ∧ t.filter.crcTally = s.filter.crcTally ∧ t.session = s.session ∧
      (c ≠ .frameStart ∨ ¬s.ApplyDue →
        t.objects = s.objects ∧ t.generations = s.generations ∧ t.palettes = s.palettes ∧ t.images = s.images) ∧
      (c ≠ .packetStart → t.filter.reception = .none ∧ heldPart t.filter.holdQueue = [] ∧
        (s.filter.reception ≠ .none → t.filter.byteCount = 0)) ∧
      ∃ l, t.reports = s.raised l ∧ l.filter (fun e => e.kind == .link) = if counted then
        [.link ⟨.truncated, s.filter.crcTally, min 65535 (s.filter.truncTally + 1), t.tracker.frameCounter⟩] else []
    (∀ c, (rasterOf c).isSome = true ∨ c = .packetStart ∨ c = .forwardLinkDown →
      ∃ t, ends c (s.filter.reception = .holding ∨ s.filter.reception = .overlong) t ∧
        ((rasterOf c).isSome = true → ∃ x : FwdSymbol, x.rasterKind = rasterOf c ∧
          t.contentStream = s.contentStream ++ [.symbol x]) ∧
        (c = .packetStart → t.contentStream = s.contentStream ++ [.symbol .packetStart]) ∧
        (c = .forwardLinkDown → t.contentStream = s.contentStream)) ∧
    (s.filter.reception ≠ .holding → ∃ t, ends .packetEnd (s.filter.reception = .overlong) t ∧
      t.contentStream = s.contentStream ++ [.symbol .packetEnd])

/-! ### Links and reset -/

/-- R66, R112, R113, R117, R118, R132: link down abandons the frame, stops compositing, latching a composited frame's summary as cut
short, raises its RASTER, TRUNCATION and LINK events, and starts the drain, or presents DOWN at once with nothing to send; a symbol
that arrives in a drain sends the drain's next one, and DRAIN_END what is left; with its last symbol the output presents DOWN, then
UP when symbols are taken or a further drain waits; link up presents UP or waits for the drain; RESET_N asserted releases the held packet and drains. The tables and the session stand through all of them. While no
symbol is taken, none changes anything. The model's choices among these: events that cannot arise in a state (log entry 4), what
leaves in a drain and when, and a drain behind another (6, 7), that tables and session stand from RESET_N asserted to its release (8), the
order of the three events of a link down (13), and that link down and link up change nothing while RESET_N is asserted (23). -/
def Obligations.ForwardLinkDrainsAndReturns : Prop :=
  ∀ s : State,
    let same (t : State) : Prop := t.session = s.session ∧ t.objects = s.objects ∧ t.generations = s.generations ∧
      t.images = s.images ∧ t.palettes = s.palettes ∧ t.retSent = s.retSent
    let waiting := s.filter.holdQueue.length - s.drains.sum
    let drained (t : State) : Prop :=
      (0 < waiting → t.drains = s.drains ++ [waiting] ∧ t.fwdSent = s.fwdSent ∧ t.fwdOutUp = s.fwdOutUp) ∧
      (waiting = 0 → s.drains = [] → s.fwdOutUp = true →
        t.drains = [] ∧ t.fwdSent = s.fwdSent ++ [.linkDown] ∧ t.fwdOutUp = false)
    (s.receiving = true → ∃ t, exec .forwardLinkDown s = .next t ∧ same t ∧ t.fwdInUp = false ∧
      t.tracker = { Tracker.reset with frameCounter := s.tracker.frameCounter, fault := s.tracker.fault } ∧
      t.compositor = (if s.compositor.compositing = true then ⟨false, [], WorkingSummary.zero, s.summary true⟩
        else s.compositor) ∧
      (s.filter.Legal → t.reports = s.raised ((if s.tracker.rasterState = .noSignal then [] else
          [.raster ⟨.noSignal, none, s.lastFault, s.tracker.frameCounter⟩]) ++
        s.frameEvents true ++ s.cutEvents s.tracker.frameCounter)) ∧ drained t) ∧
    (s.resetAsserted = false → s.fwdInUp = false → ∃ t, exec .forwardLinkUp s = .next t ∧ same t ∧ t.fwdInUp = true ∧
      t.tracker = s.tracker ∧ t.filter = s.filter ∧
      (s.drains = [] → t.fwdOutUp = true ∧ t.fwdSent = s.fwdSent ++ [.linkUp]) ∧
      (s.drains ≠ [] → t.fwdOutUp = s.fwdOutUp ∧ t.fwdSent = s.fwdSent)) ∧
    (∀ n rest, s.drains = n :: rest → ∃ t, exec .drainEnd s = .next t ∧ same t ∧ t.drains = rest ∧
      t.filter = { s.filter with holdQueue := s.filter.holdQueue.drop n } ∧
      let sent := s.fwdSent ++ (s.filter.holdQueue.take n).map (fun e => .symbol e.symbol) ++ [.linkDown]
      (rest = [] → s.receiving = false → t.fwdOutUp = false ∧ t.fwdSent = sent) ∧
      (rest ≠ [] ∨ s.receiving = true → t.fwdOutUp = true ∧ t.fwdSent = sent ++ [.linkUp])) ∧
    (∀ n rest e q c, s.receiving = true → s.drains = n :: rest → s.filter.holdQueue = e :: q → e.held = false →
      (rasterOf c).isSome = true ∨ c = .packetStart ∨ (∃ b, c = .packetByte b) ∨ c = .packetEnd ∨ c = .idle →
      ∃ t, exec c s = .next t ∧
        (1 < n → t.drains = (n - 1) :: rest ∧ t.fwdOutUp = s.fwdOutUp ∧ t.fwdSent = s.fwdSent ++ [.symbol e.symbol]) ∧
        (n ≤ 1 → t.drains = rest ∧ t.fwdOutUp = true ∧
          t.fwdSent = s.fwdSent ++ [.symbol e.symbol, .linkDown, .linkUp])) ∧
    (s.resetAsserted = false → ∃ t, exec .resetAssert s = .next t ∧ same t ∧ t.resetAsserted = true ∧
      t.retOutUp = false ∧ t.roomBelow = false ∧ heldPart t.filter.holdQueue = [] ∧ t.filter.reception = .none ∧
      t.filter.holdQueue.map QueuedSymbol.symbol = s.filter.holdQueue.map QueuedSymbol.symbol ∧ drained t) ∧
    (s.resetAsserted = true → exec .forwardLinkDown s = .next s ∧ exec .forwardLinkUp s = .next s) ∧
    (s.receiving = false → ∀ c, (rasterOf c).isSome = true ∨ c = .packetStart ∨ (∃ b, c = .packetByte b) ∨
      c = .packetEnd ∨ c = .idle → exec c s = .next s)

/-- R2, R23, R45, R67, R68, R85, R87, R99, R118 to R120, R133, R149: the release of RESET_N and power-up leave every block at its hard
reset values with the address of the straps and the links DOWN; the release first sends what still waits, and power-up drops it
(log entries 8 and 9). ROOM from upstream is an input (log entry 11). That a power-up leaves RESET_N released, also where it stood
asserted before, is the model's choice (log entry 26). -/
def Obligations.HardResetRestoresEveryBlock : Prop :=
  ∀ (s : State) (straps : BitVec 4) (c : Instr), c = .resetRelease straps ∨ c = .powerUp straps →
    ∃ t, exec c s = .next t ∧
      t = { State.reset with
        unitAddress := straps
        upstreamRoom := s.upstreamRoom
        fwdSent := t.fwdSent
        retSent := s.retSent
        pending := s.pending } ∧
      t.fwdSent = s.fwdSent ++
        (if c = .resetRelease straps then s.filter.holdQueue.map (fun e => .symbol e.symbol) else []) ++
        (if s.fwdOutUp = true then [.linkDown] else []) ∧
      (∀ i, t.objects.stagedAt i = none ∧ t.objects.activeAt i = none) ∧
      (∀ h, t.images.imageAt h = none ∧ (t.images.entry h).stagedRefs = 0 ∧ (t.images.entry h).activeRefs = 0) ∧
      t.images.freePages.map Fin.val = List.range 2048 ∧ (∀ a, Memory.read t.images.memory a = 0) ∧
      (∀ p i, t.palettes.entryAt p i = ⟨⟨0, 0, 0⟩, 0⟩)

/-! ### Reports and the return lane -/

/-- R155 to R157, R160: what RET_IN's symbols and its lane state make of the relay queue, and ROOM toward the unit below. A packet
received whole at the head of the queue is offered to the arbiter in the same event; one received behind another is not. A
PACKET_START while a packet is being received takes its place, also with four places taken (log entry 14). -/
def Obligations.RelayQueueReceivesPackets : Prop :=
  ∀ s : State, s.resetAsserted = false → s.reports.inputLaneUp = true →
    let held (l : List RelayPlace) : State := { s with reports := { s.reports with relay := l } }
    let relayed (c : Instr) (l : List RelayPlace) : Prop := ∃ t, exec c s = .next t ∧
      t = held l ∧ (t.roomBelow = true ↔ l.length < 4)
    let l := s.reports.relay
    let noneOpen := ∀ p, l.getLast? = some p → p.whole = true
    (noneOpen → l.length < 4 → relayed .relayPacketStart (l ++ [⟨[], false⟩])) ∧
    (noneOpen → 4 ≤ l.length → relayed .relayPacketStart l) ∧
    (∀ front bytes, l = front ++ [⟨bytes, false⟩] →
      relayed .relayPacketStart (front ++ [⟨[], false⟩]) ∧
      (∀ b, bytes.length < 64 → relayed (.relayPacketByte b) (front ++ [⟨bytes ++ [b], false⟩])) ∧
      (∀ b, 64 ≤ bytes.length → relayed (.relayPacketByte b) front) ∧
      (bytes.length < 8 → relayed .relayPacketEnd front) ∧
      (8 ≤ bytes.length → front ≠ [] → relayed .relayPacketEnd (front ++ [⟨bytes, true⟩])) ∧
      (8 ≤ bytes.length → front = [] → ∃ t, exec .relayPacketEnd s = .next t ∧
        exec .transmissionStart (held [⟨bytes, true⟩]) = .next t ∧ t.reports.relay = [⟨bytes, true⟩] ∧ t.roomBelow = true) ∧
      exec .returnInputLinkDown s = .next { s with reports := { s.reports with inputLaneUp := false, relay := front } }) ∧
    (noneOpen → (∀ b, relayed (.relayPacketByte b) l) ∧ relayed .relayPacketEnd l ∧
      exec .returnInputLinkDown s = .next { s with reports := { s.reports with inputLaneUp := false } }) ∧
    relayed .relayIdle l ∧
    ∀ u : State, u.resetAsserted = false → u.reports.inputLaneUp = false →
      exec .returnInputLinkUp u = .next { u with reports := { u.reports with inputLaneUp := true } } ∧
      exec .relayPacketStart u = .next u ∧ (∀ b, exec (.relayPacketByte b) u = .next u) ∧ exec .relayPacketEnd u = .next u

/-- R157 to R159: a transmission begins only on an UP lane with ROOM, of the head the arbiter serves, alternating when both queues
have one, and the arbiter decides in the event that makes its conditions hold: ROOM asserted, the lane UP, the end of a
transmission, a report filled into an empty report queue (for a relay packet see RelayQueueReceivesPackets). At its end the packet
leaves its queue and is sent whole; a lane that goes DOWN abandons it, and the abandoned packet is begun again, ahead of any
choice, as soon as the lane is UP with ROOM asserted. TRANSMISSION_START is the same decision as a command of its own, and finds
nothing to do where every event has made it (log entry 12). -/
def Obligations.TransmitterServesTheQueuesInTurn : Prop :=
  ∀ s : State, s.resetAsserted = false →
    let r := s.reports
    let begun (q : QueueName) : Prop :=
      exec .transmissionStart s = .next { s with reports := { r with transmitter := .sending q, lastServed := q } }
    let decides (c : Instr) (u : State) : Prop := ∃ t, exec c s = .next t ∧ exec .transmissionStart u = .next t
    decides .upstreamRoomAsserted { s with upstreamRoom := true } ∧
    exec .upstreamRoomWithdrawn s = .next { s with upstreamRoom := false } ∧
    decides .returnOutputLinkUp { s with reports := { r with outputLaneUp := true } } ∧
    (∀ q, r.transmitter = .abandoned q →
      (r.outputLaneUp = true → exec .upstreamRoomAsserted s =
        .next { s with upstreamRoom := true, reports := { r with transmitter := .sending q } }) ∧
      (s.upstreamRoom = true → exec .returnOutputLinkUp s =
        .next { s with reports := { r with outputLaneUp := true, transmitter := .sending q } })) ∧
    (∀ q, r.transmitter = .sending q ∨ r.transmitter = .abandoned q → exec .returnOutputLinkDown s =
      .next { s with reports := { r with outputLaneUp := false, transmitter := .abandoned q } }) ∧
    (r.transmitter = .free → exec .returnOutputLinkDown s = .next { s with reports := { r with outputLaneUp := false } }) ∧
    (s.upstreamRoom = false ∨ r.outputLaneUp = false → exec .transmissionStart s = .next s) ∧
    (s.ArbiterSettled → exec .transmissionStart s = .next s) ∧
    (r.outputLaneUp = true → s.upstreamRoom = true →
      (∀ q, r.transmitter = .abandoned q →
        exec .transmissionStart s = .next { s with reports := { r with transmitter := .sending q } }) ∧
      (r.transmitter = .free → r.reportHead.isSome = true → r.relayHead = none → begun .report) ∧
      (r.transmitter = .free → r.reportHead = none → r.relayHead.isSome = true → begun .relay) ∧
      (r.transmitter = .free → r.reportHead.isSome = true → r.relayHead.isSome = true →
        begun (if r.lastServed = .report then .relay else .report)) ∧
      (r.transmitter = .free → r.reportHead = none → r.relayHead = none → exec .transmissionStart s = .next s) ∧
      ∀ i seq code p, carried i = some (.unicast, seq, code, p) → s.takesCommands = true → r.queue = [] →
        r.transmitter = .free → r.relayHead = none ∨ r.lastServed = .relay →
        ∃ t, exec i s = .next t ∧ t.reports.transmitter = .sending .report ∧ t.reports.lastServed = .report) ∧
    (∀ bytes rest, r.outputLaneUp = true → r.transmitter = .sending .relay → r.relay = ⟨bytes, true⟩ :: rest →
      decides .transmissionEnd { s with
        retSent := s.retSent ++ [bytes]
        reports := { r with relay := rest, transmitter := .free } }) ∧
    (∀ bytes rest, r.outputLaneUp = true → r.transmitter = .sending .report → r.queue = .filled bytes :: rest →
      ∃ u, decides .transmissionEnd u ∧
        u = { s with
          retSent := s.retSent ++ [bytes]
          reports := { r with queue := u.reports.queue, events := u.reports.events, transmitter := .free } } ∧
        rest <+: u.reports.queue ∧
        (r.events = PendingEvents.empty →
          u.reports.queue = rest ∧ u.reports.events = PendingEvents.empty) ∧
        (7 ≤ rest.length → u.reports.queue = rest ∧ u.reports.events = r.events) ∧
        ∀ e, rest.length = 6 → r.events.first = some e → u.reports.queue = rest ++ [.filled (eventReport s.unitAddress e)] ∧
          u.reports.events = r.events.drop e.kind)

/-- R152, R153, R157: a raised event of a kind outside the mask leaves nothing behind; of an enabled kind it becomes an EVENT report at
the tail at once when at least two slots are free, offered to the arbiter where the queue was empty, and otherwise waits in the
set, in place of the data of its kind; among the waiting kinds RASTER stands first, then COMMIT, TRUNCATION and LINK. -/
def Obligations.EventsAreBuiltOrWait : Prop :=
  (∀ (s : State) (e : Event), s.reports.Legal →
    let built : ReportUnit := { s.reports with queue := s.reports.queue ++ [.filled (eventReport s.unitAddress e)] }
    (s.session.mask.has e.kind = false → s.raised [e] = s.reports) ∧
    (s.session.mask.has e.kind = true → s.reports.queue = [] →
      ∃ t, exec .transmissionStart { s with reports := built } = .next t ∧ s.raised [e] = t.reports) ∧
    (s.session.mask.has e.kind = true → s.reports.queue ≠ [] → s.reports.queue.length ≤ 6 → s.raised [e] = built) ∧
    (s.session.mask.has e.kind = true → 7 ≤ s.reports.queue.length →
      s.raised [e] = { s.reports with events := s.reports.events.record e })) ∧
  (∀ (r : ReportUnit) (source : BitVec 4) (mask : EventMask) (e : Event), r.Legal →
    (mask.has e.kind = false → r.raise source mask e = r) ∧
    (mask.has e.kind = true → r.queue.length ≤ 6 →
      r.raise source mask e = { r with queue := r.queue ++ [.filled (eventReport source e)] }) ∧
    (mask.has e.kind = true → 7 ≤ r.queue.length → r.raise source mask e = { r with events := r.events.record e })) ∧
  ∀ p : PendingEvents, (∀ x, p.raster = some x → p.first = some (.raster x)) ∧
    (∀ x, p.raster = none → p.commit = some x → p.first = some (.commit x)) ∧
    (∀ x, p.raster = none → p.commit = none → p.truncation = some x → p.first = some (.truncation x)) ∧
    (∀ x, p.raster = none → p.commit = none → p.truncation = none → p.link = some x → p.first = some (.link x))

end
end

