-- ==== Sys2Proof/Laws/State.lean ====
section
/-! SUPPORT. The fields each named update of the state leaves alone: one lemma per field per update, so that no later proof
unfolds a record update to read a field behind it. -/

set_option Elab.async false

namespace Sys2Proof.Machine

variable (s : State)

/-! `startTransmission` -/
@[simp] theorem startTransmission_resetAsserted : (startTransmission s).resetAsserted = s.resetAsserted := rfl
@[simp] theorem startTransmission_unitAddress : (startTransmission s).unitAddress = s.unitAddress := rfl
@[simp] theorem startTransmission_fwdInUp : (startTransmission s).fwdInUp = s.fwdInUp := rfl
@[simp] theorem startTransmission_fwdOutUp : (startTransmission s).fwdOutUp = s.fwdOutUp := rfl
@[simp] theorem startTransmission_drains : (startTransmission s).drains = s.drains := rfl
@[simp] theorem startTransmission_upstreamRoom : (startTransmission s).upstreamRoom = s.upstreamRoom := rfl
@[simp] theorem startTransmission_tracker : (startTransmission s).tracker = s.tracker := rfl
@[simp] theorem startTransmission_filter : (startTransmission s).filter = s.filter := rfl
@[simp] theorem startTransmission_session : (startTransmission s).session = s.session := rfl
@[simp] theorem startTransmission_objects : (startTransmission s).objects = s.objects := rfl
@[simp] theorem startTransmission_generations : (startTransmission s).generations = s.generations := rfl
@[simp] theorem startTransmission_images : (startTransmission s).images = s.images := rfl
@[simp] theorem startTransmission_palettes : (startTransmission s).palettes = s.palettes := rfl
@[simp] theorem startTransmission_compositor : (startTransmission s).compositor = s.compositor := rfl
@[simp] theorem startTransmission_fwdSent : (startTransmission s).fwdSent = s.fwdSent := rfl
@[simp] theorem startTransmission_retSent : (startTransmission s).retSent = s.retSent := rfl
@[simp] theorem startTransmission_pending : (startTransmission s).pending = s.pending := rfl

/-! `reportFilled` -/
@[simp] theorem reportFilled_resetAsserted (r : ReportUnit) : (reportFilled r s).resetAsserted = s.resetAsserted := rfl
@[simp] theorem reportFilled_unitAddress (r : ReportUnit) : (reportFilled r s).unitAddress = s.unitAddress := rfl
@[simp] theorem reportFilled_fwdInUp (r : ReportUnit) : (reportFilled r s).fwdInUp = s.fwdInUp := rfl
@[simp] theorem reportFilled_fwdOutUp (r : ReportUnit) : (reportFilled r s).fwdOutUp = s.fwdOutUp := rfl
@[simp] theorem reportFilled_drains (r : ReportUnit) : (reportFilled r s).drains = s.drains := rfl
@[simp] theorem reportFilled_upstreamRoom (r : ReportUnit) : (reportFilled r s).upstreamRoom = s.upstreamRoom := rfl
@[simp] theorem reportFilled_tracker (r : ReportUnit) : (reportFilled r s).tracker = s.tracker := rfl
@[simp] theorem reportFilled_filter (r : ReportUnit) : (reportFilled r s).filter = s.filter := rfl
@[simp] theorem reportFilled_session (r : ReportUnit) : (reportFilled r s).session = s.session := rfl
@[simp] theorem reportFilled_objects (r : ReportUnit) : (reportFilled r s).objects = s.objects := rfl
@[simp] theorem reportFilled_generations (r : ReportUnit) : (reportFilled r s).generations = s.generations := rfl
@[simp] theorem reportFilled_images (r : ReportUnit) : (reportFilled r s).images = s.images := rfl
@[simp] theorem reportFilled_palettes (r : ReportUnit) : (reportFilled r s).palettes = s.palettes := rfl
@[simp] theorem reportFilled_compositor (r : ReportUnit) : (reportFilled r s).compositor = s.compositor := rfl
@[simp] theorem reportFilled_fwdSent (r : ReportUnit) : (reportFilled r s).fwdSent = s.fwdSent := rfl
@[simp] theorem reportFilled_retSent (r : ReportUnit) : (reportFilled r s).retSent = s.retSent := rfl
@[simp] theorem reportFilled_pending (r : ReportUnit) : (reportFilled r s).pending = s.pending := rfl

/-! `raise` -/
@[simp] theorem raise_resetAsserted (e : Event) : (raise e s).resetAsserted = s.resetAsserted := rfl
@[simp] theorem raise_unitAddress (e : Event) : (raise e s).unitAddress = s.unitAddress := rfl
@[simp] theorem raise_fwdInUp (e : Event) : (raise e s).fwdInUp = s.fwdInUp := rfl
@[simp] theorem raise_fwdOutUp (e : Event) : (raise e s).fwdOutUp = s.fwdOutUp := rfl
@[simp] theorem raise_drains (e : Event) : (raise e s).drains = s.drains := rfl
@[simp] theorem raise_upstreamRoom (e : Event) : (raise e s).upstreamRoom = s.upstreamRoom := rfl
@[simp] theorem raise_tracker (e : Event) : (raise e s).tracker = s.tracker := rfl
@[simp] theorem raise_filter (e : Event) : (raise e s).filter = s.filter := rfl
@[simp] theorem raise_session (e : Event) : (raise e s).session = s.session := rfl
@[simp] theorem raise_objects (e : Event) : (raise e s).objects = s.objects := rfl
@[simp] theorem raise_generations (e : Event) : (raise e s).generations = s.generations := rfl
@[simp] theorem raise_images (e : Event) : (raise e s).images = s.images := rfl
@[simp] theorem raise_palettes (e : Event) : (raise e s).palettes = s.palettes := rfl
@[simp] theorem raise_compositor (e : Event) : (raise e s).compositor = s.compositor := rfl
@[simp] theorem raise_fwdSent (e : Event) : (raise e s).fwdSent = s.fwdSent := rfl
@[simp] theorem raise_retSent (e : Event) : (raise e s).retSent = s.retSent := rfl
@[simp] theorem raise_pending (e : Event) : (raise e s).pending = s.pending := rfl

/-! `raiseRaster` -/
@[simp] theorem raiseRaster_resetAsserted : (raiseRaster s).resetAsserted = s.resetAsserted := rfl
@[simp] theorem raiseRaster_unitAddress : (raiseRaster s).unitAddress = s.unitAddress := rfl
@[simp] theorem raiseRaster_fwdInUp : (raiseRaster s).fwdInUp = s.fwdInUp := rfl
@[simp] theorem raiseRaster_fwdOutUp : (raiseRaster s).fwdOutUp = s.fwdOutUp := rfl
@[simp] theorem raiseRaster_drains : (raiseRaster s).drains = s.drains := rfl
@[simp] theorem raiseRaster_upstreamRoom : (raiseRaster s).upstreamRoom = s.upstreamRoom := rfl
@[simp] theorem raiseRaster_tracker : (raiseRaster s).tracker = s.tracker := rfl
@[simp] theorem raiseRaster_filter : (raiseRaster s).filter = s.filter := rfl
@[simp] theorem raiseRaster_session : (raiseRaster s).session = s.session := rfl
@[simp] theorem raiseRaster_objects : (raiseRaster s).objects = s.objects := rfl
@[simp] theorem raiseRaster_generations : (raiseRaster s).generations = s.generations := rfl
@[simp] theorem raiseRaster_images : (raiseRaster s).images = s.images := rfl
@[simp] theorem raiseRaster_palettes : (raiseRaster s).palettes = s.palettes := rfl
@[simp] theorem raiseRaster_compositor : (raiseRaster s).compositor = s.compositor := rfl
@[simp] theorem raiseRaster_fwdSent : (raiseRaster s).fwdSent = s.fwdSent := rfl
@[simp] theorem raiseRaster_retSent : (raiseRaster s).retSent = s.retSent := rfl
@[simp] theorem raiseRaster_pending : (raiseRaster s).pending = s.pending := rfl

/-! `send` -/
@[simp] theorem send_resetAsserted (x : FwdOutput) : (send x s).resetAsserted = s.resetAsserted := rfl
@[simp] theorem send_unitAddress (x : FwdOutput) : (send x s).unitAddress = s.unitAddress := rfl
@[simp] theorem send_fwdInUp (x : FwdOutput) : (send x s).fwdInUp = s.fwdInUp := rfl
@[simp] theorem send_fwdOutUp (x : FwdOutput) : (send x s).fwdOutUp = s.fwdOutUp := rfl
@[simp] theorem send_drains (x : FwdOutput) : (send x s).drains = s.drains := rfl
@[simp] theorem send_upstreamRoom (x : FwdOutput) : (send x s).upstreamRoom = s.upstreamRoom := rfl
@[simp] theorem send_tracker (x : FwdOutput) : (send x s).tracker = s.tracker := rfl
@[simp] theorem send_filter (x : FwdOutput) : (send x s).filter = s.filter := rfl
@[simp] theorem send_session (x : FwdOutput) : (send x s).session = s.session := rfl
@[simp] theorem send_objects (x : FwdOutput) : (send x s).objects = s.objects := rfl
@[simp] theorem send_generations (x : FwdOutput) : (send x s).generations = s.generations := rfl
@[simp] theorem send_images (x : FwdOutput) : (send x s).images = s.images := rfl
@[simp] theorem send_palettes (x : FwdOutput) : (send x s).palettes = s.palettes := rfl
@[simp] theorem send_compositor (x : FwdOutput) : (send x s).compositor = s.compositor := rfl
@[simp] theorem send_reports (x : FwdOutput) : (send x s).reports = s.reports := rfl
@[simp] theorem send_retSent (x : FwdOutput) : (send x s).retSent = s.retSent := rfl
@[simp] theorem send_pending (x : FwdOutput) : (send x s).pending = s.pending := rfl

/-! `join` -/
@[simp] theorem join_resetAsserted (x : FwdSymbol) (h : Bool) : (join x h s).resetAsserted = s.resetAsserted := rfl
@[simp] theorem join_unitAddress (x : FwdSymbol) (h : Bool) : (join x h s).unitAddress = s.unitAddress := rfl
@[simp] theorem join_fwdInUp (x : FwdSymbol) (h : Bool) : (join x h s).fwdInUp = s.fwdInUp := rfl
@[simp] theorem join_fwdOutUp (x : FwdSymbol) (h : Bool) : (join x h s).fwdOutUp = s.fwdOutUp := rfl
@[simp] theorem join_drains (x : FwdSymbol) (h : Bool) : (join x h s).drains = s.drains := rfl
@[simp] theorem join_upstreamRoom (x : FwdSymbol) (h : Bool) : (join x h s).upstreamRoom = s.upstreamRoom := rfl
@[simp] theorem join_tracker (x : FwdSymbol) (h : Bool) : (join x h s).tracker = s.tracker := rfl
@[simp] theorem join_session (x : FwdSymbol) (h : Bool) : (join x h s).session = s.session := rfl
@[simp] theorem join_objects (x : FwdSymbol) (h : Bool) : (join x h s).objects = s.objects := rfl
@[simp] theorem join_generations (x : FwdSymbol) (h : Bool) : (join x h s).generations = s.generations := rfl
@[simp] theorem join_images (x : FwdSymbol) (h : Bool) : (join x h s).images = s.images := rfl
@[simp] theorem join_palettes (x : FwdSymbol) (h : Bool) : (join x h s).palettes = s.palettes := rfl
@[simp] theorem join_compositor (x : FwdSymbol) (h : Bool) : (join x h s).compositor = s.compositor := rfl
@[simp] theorem join_reports (x : FwdSymbol) (h : Bool) : (join x h s).reports = s.reports := rfl
@[simp] theorem join_fwdSent (x : FwdSymbol) (h : Bool) : (join x h s).fwdSent = s.fwdSent := rfl
@[simp] theorem join_retSent (x : FwdSymbol) (h : Bool) : (join x h s).retSent = s.retSent := rfl
@[simp] theorem join_pending (x : FwdSymbol) (h : Bool) : (join x h s).pending = s.pending := rfl

/-! `openPacket` -/
@[simp] theorem openPacket_resetAsserted (r : Reception) : (openPacket r s).resetAsserted = s.resetAsserted := rfl
@[simp] theorem openPacket_unitAddress (r : Reception) : (openPacket r s).unitAddress = s.unitAddress := rfl
@[simp] theorem openPacket_fwdInUp (r : Reception) : (openPacket r s).fwdInUp = s.fwdInUp := rfl
@[simp] theorem openPacket_fwdOutUp (r : Reception) : (openPacket r s).fwdOutUp = s.fwdOutUp := rfl
@[simp] theorem openPacket_drains (r : Reception) : (openPacket r s).drains = s.drains := rfl
@[simp] theorem openPacket_upstreamRoom (r : Reception) : (openPacket r s).upstreamRoom = s.upstreamRoom := rfl
@[simp] theorem openPacket_tracker (r : Reception) : (openPacket r s).tracker = s.tracker := rfl
@[simp] theorem openPacket_session (r : Reception) : (openPacket r s).session = s.session := rfl
@[simp] theorem openPacket_objects (r : Reception) : (openPacket r s).objects = s.objects := rfl
@[simp] theorem openPacket_generations (r : Reception) : (openPacket r s).generations = s.generations := rfl
@[simp] theorem openPacket_images (r : Reception) : (openPacket r s).images = s.images := rfl
@[simp] theorem openPacket_palettes (r : Reception) : (openPacket r s).palettes = s.palettes := rfl
@[simp] theorem openPacket_compositor (r : Reception) : (openPacket r s).compositor = s.compositor := rfl
@[simp] theorem openPacket_reports (r : Reception) : (openPacket r s).reports = s.reports := rfl
@[simp] theorem openPacket_fwdSent (r : Reception) : (openPacket r s).fwdSent = s.fwdSent := rfl
@[simp] theorem openPacket_retSent (r : Reception) : (openPacket r s).retSent = s.retSent := rfl
@[simp] theorem openPacket_pending (r : Reception) : (openPacket r s).pending = s.pending := rfl

/-! `closePacket` -/
@[simp] theorem closePacket_resetAsserted : (closePacket s).resetAsserted = s.resetAsserted := rfl
@[simp] theorem closePacket_unitAddress : (closePacket s).unitAddress = s.unitAddress := rfl
@[simp] theorem closePacket_fwdInUp : (closePacket s).fwdInUp = s.fwdInUp := rfl
@[simp] theorem closePacket_fwdOutUp : (closePacket s).fwdOutUp = s.fwdOutUp := rfl
@[simp] theorem closePacket_drains : (closePacket s).drains = s.drains := rfl
@[simp] theorem closePacket_upstreamRoom : (closePacket s).upstreamRoom = s.upstreamRoom := rfl
@[simp] theorem closePacket_tracker : (closePacket s).tracker = s.tracker := rfl
@[simp] theorem closePacket_session : (closePacket s).session = s.session := rfl
@[simp] theorem closePacket_objects : (closePacket s).objects = s.objects := rfl
@[simp] theorem closePacket_generations : (closePacket s).generations = s.generations := rfl
@[simp] theorem closePacket_images : (closePacket s).images = s.images := rfl
@[simp] theorem closePacket_palettes : (closePacket s).palettes = s.palettes := rfl
@[simp] theorem closePacket_compositor : (closePacket s).compositor = s.compositor := rfl
@[simp] theorem closePacket_reports : (closePacket s).reports = s.reports := rfl
@[simp] theorem closePacket_fwdSent : (closePacket s).fwdSent = s.fwdSent := rfl
@[simp] theorem closePacket_retSent : (closePacket s).retSent = s.retSent := rfl
@[simp] theorem closePacket_pending : (closePacket s).pending = s.pending := rfl

/-! `releaseAll` -/
@[simp] theorem releaseAll_resetAsserted : (releaseAll s).resetAsserted = s.resetAsserted := rfl
@[simp] theorem releaseAll_unitAddress : (releaseAll s).unitAddress = s.unitAddress := rfl
@[simp] theorem releaseAll_fwdInUp : (releaseAll s).fwdInUp = s.fwdInUp := rfl
@[simp] theorem releaseAll_fwdOutUp : (releaseAll s).fwdOutUp = s.fwdOutUp := rfl
@[simp] theorem releaseAll_drains : (releaseAll s).drains = s.drains := rfl
@[simp] theorem releaseAll_upstreamRoom : (releaseAll s).upstreamRoom = s.upstreamRoom := rfl
@[simp] theorem releaseAll_tracker : (releaseAll s).tracker = s.tracker := rfl
@[simp] theorem releaseAll_session : (releaseAll s).session = s.session := rfl
@[simp] theorem releaseAll_objects : (releaseAll s).objects = s.objects := rfl
@[simp] theorem releaseAll_generations : (releaseAll s).generations = s.generations := rfl
@[simp] theorem releaseAll_images : (releaseAll s).images = s.images := rfl
@[simp] theorem releaseAll_palettes : (releaseAll s).palettes = s.palettes := rfl
@[simp] theorem releaseAll_compositor : (releaseAll s).compositor = s.compositor := rfl
@[simp] theorem releaseAll_reports : (releaseAll s).reports = s.reports := rfl
@[simp] theorem releaseAll_fwdSent : (releaseAll s).fwdSent = s.fwdSent := rfl
@[simp] theorem releaseAll_retSent : (releaseAll s).retSent = s.retSent := rfl
@[simp] theorem releaseAll_pending : (releaseAll s).pending = s.pending := rfl

/-! `removeHeld` -/
@[simp] theorem removeHeld_resetAsserted : (removeHeld s).resetAsserted = s.resetAsserted := rfl
@[simp] theorem removeHeld_unitAddress : (removeHeld s).unitAddress = s.unitAddress := rfl
@[simp] theorem removeHeld_fwdInUp : (removeHeld s).fwdInUp = s.fwdInUp := rfl
@[simp] theorem removeHeld_fwdOutUp : (removeHeld s).fwdOutUp = s.fwdOutUp := rfl
@[simp] theorem removeHeld_drains : (removeHeld s).drains = s.drains := rfl
@[simp] theorem removeHeld_upstreamRoom : (removeHeld s).upstreamRoom = s.upstreamRoom := rfl
@[simp] theorem removeHeld_tracker : (removeHeld s).tracker = s.tracker := rfl
@[simp] theorem removeHeld_session : (removeHeld s).session = s.session := rfl
@[simp] theorem removeHeld_objects : (removeHeld s).objects = s.objects := rfl
@[simp] theorem removeHeld_generations : (removeHeld s).generations = s.generations := rfl
@[simp] theorem removeHeld_images : (removeHeld s).images = s.images := rfl
@[simp] theorem removeHeld_palettes : (removeHeld s).palettes = s.palettes := rfl
@[simp] theorem removeHeld_compositor : (removeHeld s).compositor = s.compositor := rfl
@[simp] theorem removeHeld_reports : (removeHeld s).reports = s.reports := rfl
@[simp] theorem removeHeld_fwdSent : (removeHeld s).fwdSent = s.fwdSent := rfl
@[simp] theorem removeHeld_retSent : (removeHeld s).retSent = s.retSent := rfl
@[simp] theorem removeHeld_pending : (removeHeld s).pending = s.pending := rfl

/-! `raiseLink` -/
@[simp] theorem raiseLink_resetAsserted (c : LinkCause) : (raiseLink c s).resetAsserted = s.resetAsserted := rfl
@[simp] theorem raiseLink_unitAddress (c : LinkCause) : (raiseLink c s).unitAddress = s.unitAddress := rfl
@[simp] theorem raiseLink_fwdInUp (c : LinkCause) : (raiseLink c s).fwdInUp = s.fwdInUp := rfl
@[simp] theorem raiseLink_fwdOutUp (c : LinkCause) : (raiseLink c s).fwdOutUp = s.fwdOutUp := rfl
@[simp] theorem raiseLink_drains (c : LinkCause) : (raiseLink c s).drains = s.drains := rfl
@[simp] theorem raiseLink_upstreamRoom (c : LinkCause) : (raiseLink c s).upstreamRoom = s.upstreamRoom := rfl
@[simp] theorem raiseLink_tracker (c : LinkCause) : (raiseLink c s).tracker = s.tracker := rfl
@[simp] theorem raiseLink_filter (c : LinkCause) : (raiseLink c s).filter = s.filter := rfl
@[simp] theorem raiseLink_session (c : LinkCause) : (raiseLink c s).session = s.session := rfl
@[simp] theorem raiseLink_objects (c : LinkCause) : (raiseLink c s).objects = s.objects := rfl
@[simp] theorem raiseLink_generations (c : LinkCause) : (raiseLink c s).generations = s.generations := rfl
@[simp] theorem raiseLink_images (c : LinkCause) : (raiseLink c s).images = s.images := rfl
@[simp] theorem raiseLink_palettes (c : LinkCause) : (raiseLink c s).palettes = s.palettes := rfl
@[simp] theorem raiseLink_compositor (c : LinkCause) : (raiseLink c s).compositor = s.compositor := rfl
@[simp] theorem raiseLink_fwdSent (c : LinkCause) : (raiseLink c s).fwdSent = s.fwdSent := rfl
@[simp] theorem raiseLink_retSent (c : LinkCause) : (raiseLink c s).retSent = s.retSent := rfl
@[simp] theorem raiseLink_pending (c : LinkCause) : (raiseLink c s).pending = s.pending := rfl

/-! `countTruncated` -/
@[simp] theorem countTruncated_resetAsserted : (countTruncated s).resetAsserted = s.resetAsserted := rfl
@[simp] theorem countTruncated_unitAddress : (countTruncated s).unitAddress = s.unitAddress := rfl
@[simp] theorem countTruncated_fwdInUp : (countTruncated s).fwdInUp = s.fwdInUp := rfl
@[simp] theorem countTruncated_fwdOutUp : (countTruncated s).fwdOutUp = s.fwdOutUp := rfl
@[simp] theorem countTruncated_drains : (countTruncated s).drains = s.drains := rfl
@[simp] theorem countTruncated_upstreamRoom : (countTruncated s).upstreamRoom = s.upstreamRoom := rfl
@[simp] theorem countTruncated_tracker : (countTruncated s).tracker = s.tracker := rfl
@[simp] theorem countTruncated_session : (countTruncated s).session = s.session := rfl
@[simp] theorem countTruncated_objects : (countTruncated s).objects = s.objects := rfl
@[simp] theorem countTruncated_generations : (countTruncated s).generations = s.generations := rfl
@[simp] theorem countTruncated_images : (countTruncated s).images = s.images := rfl
@[simp] theorem countTruncated_palettes : (countTruncated s).palettes = s.palettes := rfl
@[simp] theorem countTruncated_compositor : (countTruncated s).compositor = s.compositor := rfl
@[simp] theorem countTruncated_fwdSent : (countTruncated s).fwdSent = s.fwdSent := rfl
@[simp] theorem countTruncated_retSent : (countTruncated s).retSent = s.retSent := rfl
@[simp] theorem countTruncated_pending : (countTruncated s).pending = s.pending := rfl

/-! `countCrc` -/
@[simp] theorem countCrc_resetAsserted : (countCrc s).resetAsserted = s.resetAsserted := rfl
@[simp] theorem countCrc_unitAddress : (countCrc s).unitAddress = s.unitAddress := rfl
@[simp] theorem countCrc_fwdInUp : (countCrc s).fwdInUp = s.fwdInUp := rfl
@[simp] theorem countCrc_fwdOutUp : (countCrc s).fwdOutUp = s.fwdOutUp := rfl
@[simp] theorem countCrc_drains : (countCrc s).drains = s.drains := rfl
@[simp] theorem countCrc_upstreamRoom : (countCrc s).upstreamRoom = s.upstreamRoom := rfl
@[simp] theorem countCrc_tracker : (countCrc s).tracker = s.tracker := rfl
@[simp] theorem countCrc_session : (countCrc s).session = s.session := rfl
@[simp] theorem countCrc_objects : (countCrc s).objects = s.objects := rfl
@[simp] theorem countCrc_generations : (countCrc s).generations = s.generations := rfl
@[simp] theorem countCrc_images : (countCrc s).images = s.images := rfl
@[simp] theorem countCrc_palettes : (countCrc s).palettes = s.palettes := rfl
@[simp] theorem countCrc_compositor : (countCrc s).compositor = s.compositor := rfl
@[simp] theorem countCrc_fwdSent : (countCrc s).fwdSent = s.fwdSent := rfl
@[simp] theorem countCrc_retSent : (countCrc s).retSent = s.retSent := rfl
@[simp] theorem countCrc_pending : (countCrc s).pending = s.pending := rfl

/-! `countDiscard` -/
@[simp] theorem countDiscard_resetAsserted (q : Byte) : (countDiscard q s).resetAsserted = s.resetAsserted := rfl
@[simp] theorem countDiscard_unitAddress (q : Byte) : (countDiscard q s).unitAddress = s.unitAddress := rfl
@[simp] theorem countDiscard_fwdInUp (q : Byte) : (countDiscard q s).fwdInUp = s.fwdInUp := rfl
@[simp] theorem countDiscard_fwdOutUp (q : Byte) : (countDiscard q s).fwdOutUp = s.fwdOutUp := rfl
@[simp] theorem countDiscard_drains (q : Byte) : (countDiscard q s).drains = s.drains := rfl
@[simp] theorem countDiscard_upstreamRoom (q : Byte) : (countDiscard q s).upstreamRoom = s.upstreamRoom := rfl
@[simp] theorem countDiscard_tracker (q : Byte) : (countDiscard q s).tracker = s.tracker := rfl
@[simp] theorem countDiscard_filter (q : Byte) : (countDiscard q s).filter = s.filter := rfl
@[simp] theorem countDiscard_objects (q : Byte) : (countDiscard q s).objects = s.objects := rfl
@[simp] theorem countDiscard_generations (q : Byte) : (countDiscard q s).generations = s.generations := rfl
@[simp] theorem countDiscard_images (q : Byte) : (countDiscard q s).images = s.images := rfl
@[simp] theorem countDiscard_palettes (q : Byte) : (countDiscard q s).palettes = s.palettes := rfl
@[simp] theorem countDiscard_compositor (q : Byte) : (countDiscard q s).compositor = s.compositor := rfl
@[simp] theorem countDiscard_reports (q : Byte) : (countDiscard q s).reports = s.reports := rfl
@[simp] theorem countDiscard_fwdSent (q : Byte) : (countDiscard q s).fwdSent = s.fwdSent := rfl
@[simp] theorem countDiscard_retSent (q : Byte) : (countDiscard q s).retSent = s.retSent := rfl
@[simp] theorem countDiscard_pending (q : Byte) : (countDiscard q s).pending = s.pending := rfl

/-! `reserveSlot` -/
@[simp] theorem reserveSlot_resetAsserted : (reserveSlot s).resetAsserted = s.resetAsserted := rfl
@[simp] theorem reserveSlot_unitAddress : (reserveSlot s).unitAddress = s.unitAddress := rfl
@[simp] theorem reserveSlot_fwdInUp : (reserveSlot s).fwdInUp = s.fwdInUp := rfl
@[simp] theorem reserveSlot_fwdOutUp : (reserveSlot s).fwdOutUp = s.fwdOutUp := rfl
@[simp] theorem reserveSlot_drains : (reserveSlot s).drains = s.drains := rfl
@[simp] theorem reserveSlot_upstreamRoom : (reserveSlot s).upstreamRoom = s.upstreamRoom := rfl
@[simp] theorem reserveSlot_tracker : (reserveSlot s).tracker = s.tracker := rfl
@[simp] theorem reserveSlot_filter : (reserveSlot s).filter = s.filter := rfl
@[simp] theorem reserveSlot_session : (reserveSlot s).session = s.session := rfl
@[simp] theorem reserveSlot_objects : (reserveSlot s).objects = s.objects := rfl
@[simp] theorem reserveSlot_generations : (reserveSlot s).generations = s.generations := rfl
@[simp] theorem reserveSlot_images : (reserveSlot s).images = s.images := rfl
@[simp] theorem reserveSlot_palettes : (reserveSlot s).palettes = s.palettes := rfl
@[simp] theorem reserveSlot_compositor : (reserveSlot s).compositor = s.compositor := rfl
@[simp] theorem reserveSlot_fwdSent : (reserveSlot s).fwdSent = s.fwdSent := rfl
@[simp] theorem reserveSlot_retSent : (reserveSlot s).retSent = s.retSent := rfl
@[simp] theorem reserveSlot_pending : (reserveSlot s).pending = s.pending := rfl

/-! `fillSlot` -/
@[simp] theorem fillSlot_resetAsserted (a : Ack) (r : Bool) : (fillSlot a r s).resetAsserted = s.resetAsserted := rfl
@[simp] theorem fillSlot_unitAddress (a : Ack) (r : Bool) : (fillSlot a r s).unitAddress = s.unitAddress := rfl
@[simp] theorem fillSlot_fwdInUp (a : Ack) (r : Bool) : (fillSlot a r s).fwdInUp = s.fwdInUp := rfl
@[simp] theorem fillSlot_fwdOutUp (a : Ack) (r : Bool) : (fillSlot a r s).fwdOutUp = s.fwdOutUp := rfl
@[simp] theorem fillSlot_drains (a : Ack) (r : Bool) : (fillSlot a r s).drains = s.drains := rfl
@[simp] theorem fillSlot_upstreamRoom (a : Ack) (r : Bool) : (fillSlot a r s).upstreamRoom = s.upstreamRoom := rfl
@[simp] theorem fillSlot_tracker (a : Ack) (r : Bool) : (fillSlot a r s).tracker = s.tracker := rfl
@[simp] theorem fillSlot_filter (a : Ack) (r : Bool) : (fillSlot a r s).filter = s.filter := rfl
@[simp] theorem fillSlot_objects (a : Ack) (r : Bool) : (fillSlot a r s).objects = s.objects := rfl
@[simp] theorem fillSlot_generations (a : Ack) (r : Bool) : (fillSlot a r s).generations = s.generations := rfl
@[simp] theorem fillSlot_images (a : Ack) (r : Bool) : (fillSlot a r s).images = s.images := rfl
@[simp] theorem fillSlot_palettes (a : Ack) (r : Bool) : (fillSlot a r s).palettes = s.palettes := rfl
@[simp] theorem fillSlot_compositor (a : Ack) (r : Bool) : (fillSlot a r s).compositor = s.compositor := rfl
@[simp] theorem fillSlot_fwdSent (a : Ack) (r : Bool) : (fillSlot a r s).fwdSent = s.fwdSent := rfl
@[simp] theorem fillSlot_retSent (a : Ack) (r : Bool) : (fillSlot a r s).retSent = s.retSent := rfl
@[simp] theorem fillSlot_pending (a : Ack) (r : Bool) : (fillSlot a r s).pending = s.pending := rfl

/-! `consume` -/
@[simp] theorem consume_resetAsserted (q : Byte) : (consume q s).resetAsserted = s.resetAsserted := rfl
@[simp] theorem consume_unitAddress (q : Byte) : (consume q s).unitAddress = s.unitAddress := rfl
@[simp] theorem consume_fwdInUp (q : Byte) : (consume q s).fwdInUp = s.fwdInUp := rfl
@[simp] theorem consume_fwdOutUp (q : Byte) : (consume q s).fwdOutUp = s.fwdOutUp := rfl
@[simp] theorem consume_drains (q : Byte) : (consume q s).drains = s.drains := rfl
@[simp] theorem consume_upstreamRoom (q : Byte) : (consume q s).upstreamRoom = s.upstreamRoom := rfl
@[simp] theorem consume_tracker (q : Byte) : (consume q s).tracker = s.tracker := rfl
@[simp] theorem consume_filter (q : Byte) : (consume q s).filter = s.filter := rfl
@[simp] theorem consume_objects (q : Byte) : (consume q s).objects = s.objects := rfl
@[simp] theorem consume_generations (q : Byte) : (consume q s).generations = s.generations := rfl
@[simp] theorem consume_images (q : Byte) : (consume q s).images = s.images := rfl
@[simp] theorem consume_palettes (q : Byte) : (consume q s).palettes = s.palettes := rfl
@[simp] theorem consume_compositor (q : Byte) : (consume q s).compositor = s.compositor := rfl
@[simp] theorem consume_reports (q : Byte) : (consume q s).reports = s.reports := rfl
@[simp] theorem consume_fwdSent (q : Byte) : (consume q s).fwdSent = s.fwdSent := rfl
@[simp] theorem consume_retSent (q : Byte) : (consume q s).retSent = s.retSent := rfl
@[simp] theorem consume_pending (q : Byte) : (consume q s).pending = s.pending := rfl

/-! `countRefusal` -/
@[simp] theorem countRefusal_resetAsserted : (countRefusal s).resetAsserted = s.resetAsserted := rfl
@[simp] theorem countRefusal_unitAddress : (countRefusal s).unitAddress = s.unitAddress := rfl
@[simp] theorem countRefusal_fwdInUp : (countRefusal s).fwdInUp = s.fwdInUp := rfl
@[simp] theorem countRefusal_fwdOutUp : (countRefusal s).fwdOutUp = s.fwdOutUp := rfl
@[simp] theorem countRefusal_drains : (countRefusal s).drains = s.drains := rfl
@[simp] theorem countRefusal_upstreamRoom : (countRefusal s).upstreamRoom = s.upstreamRoom := rfl
@[simp] theorem countRefusal_tracker : (countRefusal s).tracker = s.tracker := rfl
@[simp] theorem countRefusal_filter : (countRefusal s).filter = s.filter := rfl
@[simp] theorem countRefusal_objects : (countRefusal s).objects = s.objects := rfl
@[simp] theorem countRefusal_generations : (countRefusal s).generations = s.generations := rfl
@[simp] theorem countRefusal_images : (countRefusal s).images = s.images := rfl
@[simp] theorem countRefusal_palettes : (countRefusal s).palettes = s.palettes := rfl
@[simp] theorem countRefusal_compositor : (countRefusal s).compositor = s.compositor := rfl
@[simp] theorem countRefusal_reports : (countRefusal s).reports = s.reports := rfl
@[simp] theorem countRefusal_fwdSent : (countRefusal s).fwdSent = s.fwdSent := rfl
@[simp] theorem countRefusal_retSent : (countRefusal s).retSent = s.retSent := rfl
@[simp] theorem countRefusal_pending : (countRefusal s).pending = s.pending := rfl

/-! `editStaged` -/
@[simp] theorem editStaged_resetAsserted (i : Nat) (o : Option ObjectFields) : (editStaged i o s).resetAsserted = s.resetAsserted := rfl
@[simp] theorem editStaged_unitAddress (i : Nat) (o : Option ObjectFields) : (editStaged i o s).unitAddress = s.unitAddress := rfl
@[simp] theorem editStaged_fwdInUp (i : Nat) (o : Option ObjectFields) : (editStaged i o s).fwdInUp = s.fwdInUp := rfl
@[simp] theorem editStaged_fwdOutUp (i : Nat) (o : Option ObjectFields) : (editStaged i o s).fwdOutUp = s.fwdOutUp := rfl
@[simp] theorem editStaged_drains (i : Nat) (o : Option ObjectFields) : (editStaged i o s).drains = s.drains := rfl
@[simp] theorem editStaged_upstreamRoom (i : Nat) (o : Option ObjectFields) : (editStaged i o s).upstreamRoom = s.upstreamRoom := rfl
@[simp] theorem editStaged_tracker (i : Nat) (o : Option ObjectFields) : (editStaged i o s).tracker = s.tracker := rfl
@[simp] theorem editStaged_filter (i : Nat) (o : Option ObjectFields) : (editStaged i o s).filter = s.filter := rfl
@[simp] theorem editStaged_session (i : Nat) (o : Option ObjectFields) : (editStaged i o s).session = s.session := rfl
@[simp] theorem editStaged_palettes (i : Nat) (o : Option ObjectFields) : (editStaged i o s).palettes = s.palettes := rfl
@[simp] theorem editStaged_compositor (i : Nat) (o : Option ObjectFields) : (editStaged i o s).compositor = s.compositor := rfl
@[simp] theorem editStaged_reports (i : Nat) (o : Option ObjectFields) : (editStaged i o s).reports = s.reports := rfl
@[simp] theorem editStaged_fwdSent (i : Nat) (o : Option ObjectFields) : (editStaged i o s).fwdSent = s.fwdSent := rfl
@[simp] theorem editStaged_retSent (i : Nat) (o : Option ObjectFields) : (editStaged i o s).retSent = s.retSent := rfl
@[simp] theorem editStaged_pending (i : Nat) (o : Option ObjectFields) : (editStaged i o s).pending = s.pending := rfl

/-! `setCommit` -/
@[simp] theorem setCommit_resetAsserted (c : CommitState) : (setCommit c s).resetAsserted = s.resetAsserted := rfl
@[simp] theorem setCommit_unitAddress (c : CommitState) : (setCommit c s).unitAddress = s.unitAddress := rfl
@[simp] theorem setCommit_fwdInUp (c : CommitState) : (setCommit c s).fwdInUp = s.fwdInUp := rfl
@[simp] theorem setCommit_fwdOutUp (c : CommitState) : (setCommit c s).fwdOutUp = s.fwdOutUp := rfl
@[simp] theorem setCommit_drains (c : CommitState) : (setCommit c s).drains = s.drains := rfl
@[simp] theorem setCommit_upstreamRoom (c : CommitState) : (setCommit c s).upstreamRoom = s.upstreamRoom := rfl
@[simp] theorem setCommit_tracker (c : CommitState) : (setCommit c s).tracker = s.tracker := rfl
@[simp] theorem setCommit_filter (c : CommitState) : (setCommit c s).filter = s.filter := rfl
@[simp] theorem setCommit_session (c : CommitState) : (setCommit c s).session = s.session := rfl
@[simp] theorem setCommit_objects (c : CommitState) : (setCommit c s).objects = s.objects := rfl
@[simp] theorem setCommit_images (c : CommitState) : (setCommit c s).images = s.images := rfl
@[simp] theorem setCommit_palettes (c : CommitState) : (setCommit c s).palettes = s.palettes := rfl
@[simp] theorem setCommit_compositor (c : CommitState) : (setCommit c s).compositor = s.compositor := rfl
@[simp] theorem setCommit_reports (c : CommitState) : (setCommit c s).reports = s.reports := rfl
@[simp] theorem setCommit_fwdSent (c : CommitState) : (setCommit c s).fwdSent = s.fwdSent := rfl
@[simp] theorem setCommit_retSent (c : CommitState) : (setCommit c s).retSent = s.retSent := rfl
@[simp] theorem setCommit_pending (c : CommitState) : (setCommit c s).pending = s.pending := rfl

/-! `applyTables` -/
@[simp] theorem applyTables_resetAsserted : (applyTables s).resetAsserted = s.resetAsserted := rfl
@[simp] theorem applyTables_unitAddress : (applyTables s).unitAddress = s.unitAddress := rfl
@[simp] theorem applyTables_fwdInUp : (applyTables s).fwdInUp = s.fwdInUp := rfl
@[simp] theorem applyTables_fwdOutUp : (applyTables s).fwdOutUp = s.fwdOutUp := rfl
@[simp] theorem applyTables_drains : (applyTables s).drains = s.drains := rfl
@[simp] theorem applyTables_upstreamRoom : (applyTables s).upstreamRoom = s.upstreamRoom := rfl
@[simp] theorem applyTables_tracker : (applyTables s).tracker = s.tracker := rfl
@[simp] theorem applyTables_filter : (applyTables s).filter = s.filter := rfl
@[simp] theorem applyTables_session : (applyTables s).session = s.session := rfl
@[simp] theorem applyTables_compositor : (applyTables s).compositor = s.compositor := rfl
@[simp] theorem applyTables_reports : (applyTables s).reports = s.reports := rfl
@[simp] theorem applyTables_fwdSent : (applyTables s).fwdSent = s.fwdSent := rfl
@[simp] theorem applyTables_retSent : (applyTables s).retSent = s.retSent := rfl
@[simp] theorem applyTables_pending : (applyTables s).pending = s.pending := rfl

/-! `applyGeneration` -/
@[simp] theorem applyGeneration_resetAsserted : (applyGeneration s).resetAsserted = s.resetAsserted := rfl
@[simp] theorem applyGeneration_unitAddress : (applyGeneration s).unitAddress = s.unitAddress := rfl
@[simp] theorem applyGeneration_fwdInUp : (applyGeneration s).fwdInUp = s.fwdInUp := rfl
@[simp] theorem applyGeneration_fwdOutUp : (applyGeneration s).fwdOutUp = s.fwdOutUp := rfl
@[simp] theorem applyGeneration_drains : (applyGeneration s).drains = s.drains := rfl
@[simp] theorem applyGeneration_upstreamRoom : (applyGeneration s).upstreamRoom = s.upstreamRoom := rfl
@[simp] theorem applyGeneration_tracker : (applyGeneration s).tracker = s.tracker := rfl
@[simp] theorem applyGeneration_filter : (applyGeneration s).filter = s.filter := rfl
@[simp] theorem applyGeneration_session : (applyGeneration s).session = s.session := rfl
@[simp] theorem applyGeneration_compositor : (applyGeneration s).compositor = s.compositor := rfl
@[simp] theorem applyGeneration_fwdSent : (applyGeneration s).fwdSent = s.fwdSent := rfl
@[simp] theorem applyGeneration_retSent : (applyGeneration s).retSent = s.retSent := rfl
@[simp] theorem applyGeneration_pending : (applyGeneration s).pending = s.pending := rfl

/-! `discardStagedSide` -/
@[simp] theorem discardStagedSide_resetAsserted : (discardStagedSide s).resetAsserted = s.resetAsserted := rfl
@[simp] theorem discardStagedSide_unitAddress : (discardStagedSide s).unitAddress = s.unitAddress := rfl
@[simp] theorem discardStagedSide_fwdInUp : (discardStagedSide s).fwdInUp = s.fwdInUp := rfl
@[simp] theorem discardStagedSide_fwdOutUp : (discardStagedSide s).fwdOutUp = s.fwdOutUp := rfl
@[simp] theorem discardStagedSide_drains : (discardStagedSide s).drains = s.drains := rfl
@[simp] theorem discardStagedSide_upstreamRoom : (discardStagedSide s).upstreamRoom = s.upstreamRoom := rfl
@[simp] theorem discardStagedSide_tracker : (discardStagedSide s).tracker = s.tracker := rfl
@[simp] theorem discardStagedSide_filter : (discardStagedSide s).filter = s.filter := rfl
@[simp] theorem discardStagedSide_session : (discardStagedSide s).session = s.session := rfl
@[simp] theorem discardStagedSide_compositor : (discardStagedSide s).compositor = s.compositor := rfl
@[simp] theorem discardStagedSide_reports : (discardStagedSide s).reports = s.reports := rfl
@[simp] theorem discardStagedSide_fwdSent : (discardStagedSide s).fwdSent = s.fwdSent := rfl
@[simp] theorem discardStagedSide_retSent : (discardStagedSide s).retSent = s.retSent := rfl
@[simp] theorem discardStagedSide_pending : (discardStagedSide s).pending = s.pending := rfl

/-! `clearStagedSide` -/
@[simp] theorem clearStagedSide_resetAsserted : (clearStagedSide s).resetAsserted = s.resetAsserted := rfl
@[simp] theorem clearStagedSide_unitAddress : (clearStagedSide s).unitAddress = s.unitAddress := rfl
@[simp] theorem clearStagedSide_fwdInUp : (clearStagedSide s).fwdInUp = s.fwdInUp := rfl
@[simp] theorem clearStagedSide_fwdOutUp : (clearStagedSide s).fwdOutUp = s.fwdOutUp := rfl
@[simp] theorem clearStagedSide_drains : (clearStagedSide s).drains = s.drains := rfl
@[simp] theorem clearStagedSide_upstreamRoom : (clearStagedSide s).upstreamRoom = s.upstreamRoom := rfl
@[simp] theorem clearStagedSide_tracker : (clearStagedSide s).tracker = s.tracker := rfl
@[simp] theorem clearStagedSide_filter : (clearStagedSide s).filter = s.filter := rfl
@[simp] theorem clearStagedSide_session : (clearStagedSide s).session = s.session := rfl
@[simp] theorem clearStagedSide_compositor : (clearStagedSide s).compositor = s.compositor := rfl
@[simp] theorem clearStagedSide_reports : (clearStagedSide s).reports = s.reports := rfl
@[simp] theorem clearStagedSide_fwdSent : (clearStagedSide s).fwdSent = s.fwdSent := rfl
@[simp] theorem clearStagedSide_retSent : (clearStagedSide s).retSent = s.retSent := rfl
@[simp] theorem clearStagedSide_pending : (clearStagedSide s).pending = s.pending := rfl

/-! `decideCompositing` -/
@[simp] theorem decideCompositing_resetAsserted : (decideCompositing s).resetAsserted = s.resetAsserted := rfl
@[simp] theorem decideCompositing_unitAddress : (decideCompositing s).unitAddress = s.unitAddress := rfl
@[simp] theorem decideCompositing_fwdInUp : (decideCompositing s).fwdInUp = s.fwdInUp := rfl
@[simp] theorem decideCompositing_fwdOutUp : (decideCompositing s).fwdOutUp = s.fwdOutUp := rfl
@[simp] theorem decideCompositing_drains : (decideCompositing s).drains = s.drains := rfl
@[simp] theorem decideCompositing_upstreamRoom : (decideCompositing s).upstreamRoom = s.upstreamRoom := rfl
@[simp] theorem decideCompositing_tracker : (decideCompositing s).tracker = s.tracker := rfl
@[simp] theorem decideCompositing_filter : (decideCompositing s).filter = s.filter := rfl
@[simp] theorem decideCompositing_session : (decideCompositing s).session = s.session := rfl
@[simp] theorem decideCompositing_objects : (decideCompositing s).objects = s.objects := rfl
@[simp] theorem decideCompositing_generations : (decideCompositing s).generations = s.generations := rfl
@[simp] theorem decideCompositing_images : (decideCompositing s).images = s.images := rfl
@[simp] theorem decideCompositing_palettes : (decideCompositing s).palettes = s.palettes := rfl
@[simp] theorem decideCompositing_reports : (decideCompositing s).reports = s.reports := rfl
@[simp] theorem decideCompositing_fwdSent : (decideCompositing s).fwdSent = s.fwdSent := rfl
@[simp] theorem decideCompositing_retSent : (decideCompositing s).retSent = s.retSent := rfl
@[simp] theorem decideCompositing_pending : (decideCompositing s).pending = s.pending := rfl

/-! `emptyCandidates` -/
@[simp] theorem emptyCandidates_resetAsserted : (emptyCandidates s).resetAsserted = s.resetAsserted := rfl
@[simp] theorem emptyCandidates_unitAddress : (emptyCandidates s).unitAddress = s.unitAddress := rfl
@[simp] theorem emptyCandidates_fwdInUp : (emptyCandidates s).fwdInUp = s.fwdInUp := rfl
@[simp] theorem emptyCandidates_fwdOutUp : (emptyCandidates s).fwdOutUp = s.fwdOutUp := rfl
@[simp] theorem emptyCandidates_drains : (emptyCandidates s).drains = s.drains := rfl
@[simp] theorem emptyCandidates_upstreamRoom : (emptyCandidates s).upstreamRoom = s.upstreamRoom := rfl
@[simp] theorem emptyCandidates_tracker : (emptyCandidates s).tracker = s.tracker := rfl
@[simp] theorem emptyCandidates_filter : (emptyCandidates s).filter = s.filter := rfl
@[simp] theorem emptyCandidates_session : (emptyCandidates s).session = s.session := rfl
@[simp] theorem emptyCandidates_objects : (emptyCandidates s).objects = s.objects := rfl
@[simp] theorem emptyCandidates_generations : (emptyCandidates s).generations = s.generations := rfl
@[simp] theorem emptyCandidates_images : (emptyCandidates s).images = s.images := rfl
@[simp] theorem emptyCandidates_palettes : (emptyCandidates s).palettes = s.palettes := rfl
@[simp] theorem emptyCandidates_reports : (emptyCandidates s).reports = s.reports := rfl
@[simp] theorem emptyCandidates_fwdSent : (emptyCandidates s).fwdSent = s.fwdSent := rfl
@[simp] theorem emptyCandidates_retSent : (emptyCandidates s).retSent = s.retSent := rfl
@[simp] theorem emptyCandidates_pending : (emptyCandidates s).pending = s.pending := rfl

/-! `presentDown` -/
@[simp] theorem presentDown_resetAsserted : (presentDown s).resetAsserted = s.resetAsserted := rfl
@[simp] theorem presentDown_unitAddress : (presentDown s).unitAddress = s.unitAddress := rfl
@[simp] theorem presentDown_fwdInUp : (presentDown s).fwdInUp = s.fwdInUp := rfl
@[simp] theorem presentDown_drains : (presentDown s).drains = s.drains := rfl
@[simp] theorem presentDown_upstreamRoom : (presentDown s).upstreamRoom = s.upstreamRoom := rfl
@[simp] theorem presentDown_tracker : (presentDown s).tracker = s.tracker := rfl
@[simp] theorem presentDown_filter : (presentDown s).filter = s.filter := rfl
@[simp] theorem presentDown_session : (presentDown s).session = s.session := rfl
@[simp] theorem presentDown_objects : (presentDown s).objects = s.objects := rfl
@[simp] theorem presentDown_generations : (presentDown s).generations = s.generations := rfl
@[simp] theorem presentDown_images : (presentDown s).images = s.images := rfl
@[simp] theorem presentDown_palettes : (presentDown s).palettes = s.palettes := rfl
@[simp] theorem presentDown_compositor : (presentDown s).compositor = s.compositor := rfl
@[simp] theorem presentDown_reports : (presentDown s).reports = s.reports := rfl
@[simp] theorem presentDown_retSent : (presentDown s).retSent = s.retSent := rfl
@[simp] theorem presentDown_pending : (presentDown s).pending = s.pending := rfl

/-! `presentUp` -/
@[simp] theorem presentUp_resetAsserted : (presentUp s).resetAsserted = s.resetAsserted := rfl
@[simp] theorem presentUp_unitAddress : (presentUp s).unitAddress = s.unitAddress := rfl
@[simp] theorem presentUp_fwdInUp : (presentUp s).fwdInUp = s.fwdInUp := rfl
@[simp] theorem presentUp_drains : (presentUp s).drains = s.drains := rfl
@[simp] theorem presentUp_upstreamRoom : (presentUp s).upstreamRoom = s.upstreamRoom := rfl
@[simp] theorem presentUp_tracker : (presentUp s).tracker = s.tracker := rfl
@[simp] theorem presentUp_filter : (presentUp s).filter = s.filter := rfl
@[simp] theorem presentUp_session : (presentUp s).session = s.session := rfl
@[simp] theorem presentUp_objects : (presentUp s).objects = s.objects := rfl
@[simp] theorem presentUp_generations : (presentUp s).generations = s.generations := rfl
@[simp] theorem presentUp_images : (presentUp s).images = s.images := rfl
@[simp] theorem presentUp_palettes : (presentUp s).palettes = s.palettes := rfl
@[simp] theorem presentUp_compositor : (presentUp s).compositor = s.compositor := rfl
@[simp] theorem presentUp_reports : (presentUp s).reports = s.reports := rfl
@[simp] theorem presentUp_retSent : (presentUp s).retSent = s.retSent := rfl
@[simp] theorem presentUp_pending : (presentUp s).pending = s.pending := rfl

/-! `sendFirst` -/
@[simp] theorem sendFirst_resetAsserted (n : Nat) : (sendFirst n s).resetAsserted = s.resetAsserted := rfl
@[simp] theorem sendFirst_unitAddress (n : Nat) : (sendFirst n s).unitAddress = s.unitAddress := rfl
@[simp] theorem sendFirst_fwdInUp (n : Nat) : (sendFirst n s).fwdInUp = s.fwdInUp := rfl
@[simp] theorem sendFirst_fwdOutUp (n : Nat) : (sendFirst n s).fwdOutUp = s.fwdOutUp := rfl
@[simp] theorem sendFirst_drains (n : Nat) : (sendFirst n s).drains = s.drains := rfl
@[simp] theorem sendFirst_upstreamRoom (n : Nat) : (sendFirst n s).upstreamRoom = s.upstreamRoom := rfl
@[simp] theorem sendFirst_tracker (n : Nat) : (sendFirst n s).tracker = s.tracker := rfl
@[simp] theorem sendFirst_session (n : Nat) : (sendFirst n s).session = s.session := rfl
@[simp] theorem sendFirst_objects (n : Nat) : (sendFirst n s).objects = s.objects := rfl
@[simp] theorem sendFirst_generations (n : Nat) : (sendFirst n s).generations = s.generations := rfl
@[simp] theorem sendFirst_images (n : Nat) : (sendFirst n s).images = s.images := rfl
@[simp] theorem sendFirst_palettes (n : Nat) : (sendFirst n s).palettes = s.palettes := rfl
@[simp] theorem sendFirst_compositor (n : Nat) : (sendFirst n s).compositor = s.compositor := rfl
@[simp] theorem sendFirst_reports (n : Nat) : (sendFirst n s).reports = s.reports := rfl
@[simp] theorem sendFirst_retSent (n : Nat) : (sendFirst n s).retSent = s.retSent := rfl
@[simp] theorem sendFirst_pending (n : Nat) : (sendFirst n s).pending = s.pending := rfl

end Sys2Proof.Machine
end

