-- ==== Sys2Proof/Laws/Arbiter.lean ====
section
/-! SUPPORT. The arbiter's decision and the events that make it: what it changes, what it may begin, and that it leaves nothing to
decide (R157 to R159). -/

set_option Elab.async false

namespace Sys2Proof.Machine

/-! ### What a decision changes -/

section
variable (r : ReportUnit)

@[simp] theorem begin_queue : r.begin.queue = r.queue := by unfold ReportUnit.begin; repeat (first | rfl | split)
@[simp] theorem begin_events : r.begin.events = r.events := by unfold ReportUnit.begin; repeat (first | rfl | split)
@[simp] theorem begin_relay : r.begin.relay = r.relay := by unfold ReportUnit.begin; repeat (first | rfl | split)
@[simp] theorem begin_inputLaneUp : r.begin.inputLaneUp = r.inputLaneUp := by
  unfold ReportUnit.begin; repeat (first | rfl | split)
@[simp] theorem begin_outputLaneUp : r.begin.outputLaneUp = r.outputLaneUp := by
  unfold ReportUnit.begin; repeat (first | rfl | split)

end

section
variable (s : State) (before : ReportUnit)

@[simp] theorem startTransmission_queue : (startTransmission s).reports.queue = s.reports.queue := by
  simp only [startTransmission]; split <;> simp
@[simp] theorem startTransmission_events : (startTransmission s).reports.events = s.reports.events := by
  simp only [startTransmission]; split <;> simp
@[simp] theorem startTransmission_relay : (startTransmission s).reports.relay = s.reports.relay := by
  simp only [startTransmission]; split <;> simp
@[simp] theorem startTransmission_inputLaneUp : (startTransmission s).reports.inputLaneUp = s.reports.inputLaneUp := by
  simp only [startTransmission]; split <;> simp
@[simp] theorem startTransmission_outputLaneUp : (startTransmission s).reports.outputLaneUp = s.reports.outputLaneUp := by
  simp only [startTransmission]; split <;> simp

@[simp] theorem reportFilled_queue : (reportFilled before s).reports.queue = s.reports.queue := by
  simp only [reportFilled]; split <;> simp
@[simp] theorem reportFilled_events : (reportFilled before s).reports.events = s.reports.events := by
  simp only [reportFilled]; split <;> simp
@[simp] theorem reportFilled_relay : (reportFilled before s).reports.relay = s.reports.relay := by
  simp only [reportFilled]; split <;> simp
@[simp] theorem reportFilled_inputLaneUp : (reportFilled before s).reports.inputLaneUp = s.reports.inputLaneUp := by
  simp only [reportFilled]; split <;> simp
@[simp] theorem reportFilled_outputLaneUp : (reportFilled before s).reports.outputLaneUp = s.reports.outputLaneUp := by
  simp only [reportFilled]; split <;> simp

end

/-! ### When a decision is made -/

/-- Only the head of the queue before the filling matters. -/
theorem reportFilled_before {a b : ReportUnit} (h : a.reportHead = b.reportHead) (s : State) :
    reportFilled a s = reportFilled b s := by
  simp only [reportFilled, h]

/-- Behind a report that stands at the head no decision is made. -/
theorem reportFilled_behind {before : ReportUnit} (h : before.reportHead.isSome = true) (s : State) :
    reportFilled before s = s := by
  obtain ⟨b, hb⟩ := Option.isSome_iff_exists.mp h
  simp only [reportFilled, hb]
  rfl

/-- With no report at the head no decision is made. -/
theorem reportFilled_nothing {s : State} (h : s.reports.reportHead = none) (before : ReportUnit) :
    reportFilled before s = s := by
  simp only [reportFilled, h, Option.isSome_none, Bool.and_false]
  rfl

/-- A report filled into a queue that had none at its head is offered to the arbiter. -/
theorem reportFilled_decides {before : ReportUnit} {s : State} (hb : before.reportHead = none)
    (hs : s.reports.reportHead.isSome = true) : reportFilled before s = startTransmission s := by
  simp only [reportFilled, hb, hs]
  rfl

/-- A filling either changes nothing further or is the arbiter's decision. -/
theorem reportFilled_cases (before : ReportUnit) (s : State) :
    reportFilled before s = s ∨ reportFilled before s = startTransmission s := by
  cases hb : before.reportHead with
  | some b => exact .inl (reportFilled_behind (by simp [hb]) s)
  | none =>
    cases hs : s.reports.reportHead with
    | none => exact .inl (reportFilled_nothing hs before)
    | some b => exact .inr (reportFilled_decides hb (by simp [hs]))

/-- With the lane DOWN or without ROOM nothing begins. -/
theorem startTransmission_waits {s : State} (h : (s.retOutUp && s.upstreamRoom) = false) : startTransmission s = s := by
  simp only [startTransmission, h]
  rfl

/-- All that a decision can do: nothing, on a lane DOWN, without ROOM, on a transmitter that sends, or with no packet to send;
else the abandoned packet, or the queue chosen, is begun. -/
theorem startTransmission_cases (s : State) :
    (startTransmission s = s ∧ (s.retOutUp = true → s.upstreamRoom = true →
      (∃ q, s.reports.transmitter = .sending q) ∨ s.reports.transmitter = .free ∧ s.reports.choice = none)) ∨
    (s.retOutUp = true ∧ s.upstreamRoom = true ∧
      ((∃ q, s.reports.transmitter = .abandoned q ∧
          startTransmission s = { s with reports := { s.reports with transmitter := .sending q } }) ∨
        ∃ q, s.reports.transmitter = .free ∧ s.reports.choice = some q ∧
          startTransmission s = { s with reports := { s.reports with transmitter := .sending q, lastServed := q } })) := by
  by_cases h : (s.retOutUp && s.upstreamRoom) = true
  · have h' : s.retOutUp = true ∧ s.upstreamRoom = true := by simpa using h
    simp only [startTransmission, h, if_true]
    unfold ReportUnit.begin
    cases ht : s.reports.transmitter with
    | sending q => exact .inl ⟨rfl, fun _ _ => .inl ⟨q, rfl⟩⟩
    | abandoned q => exact .inr ⟨h'.1, h'.2, .inl ⟨q, rfl, rfl⟩⟩
    | free =>
      cases hc : s.reports.choice with
      | none => exact .inl ⟨rfl, fun _ _ => .inr ⟨rfl, rfl⟩⟩
      | some q => exact .inr ⟨h'.1, h'.2, .inr ⟨q, rfl, rfl, rfl⟩⟩
  · refine .inl ⟨startTransmission_waits (by simpa using h), fun a b => ?_⟩
    exact absurd (by simp [a, b]) h

/-- A decision looks at the lane, ROOM, the transmitter, the mark and the two heads alone. -/
theorem startTransmission_heads {s t : State} (hu : t.retOutUp = s.retOutUp) (hr : t.upstreamRoom = s.upstreamRoom)
    (ht : t.reports.transmitter = s.reports.transmitter) (hm : t.reports.lastServed = s.reports.lastServed)
    (hl : t.reports.relayHead = s.reports.relayHead) (hh : t.reports.reportHead.isSome = s.reports.reportHead.isSome) :
    (startTransmission t).reports.transmitter = (startTransmission s).reports.transmitter ∧
      (startTransmission t).reports.lastServed = (startTransmission s).reports.lastServed := by
  have hc : t.reports.choice = s.reports.choice := by
    unfold ReportUnit.choice
    rw [hl, hm]
    cases h1 : t.reports.reportHead <;> cases h2 : s.reports.reportHead <;> simp_all
    cases s.reports.relayHead <;> rfl
  simp only [startTransmission, hu, hr]
  split
  · unfold ReportUnit.begin
    rw [ht, hc]
    split
    · exact ⟨ht, hm⟩
    · exact ⟨rfl, hm⟩
    · split
      · exact ⟨ht, hm⟩
      · exact ⟨rfl, rfl⟩
  · exact ⟨ht, hm⟩

theorem reportFilled_heads {s t : State} (before : ReportUnit) (hu : t.retOutUp = s.retOutUp)
    (hr : t.upstreamRoom = s.upstreamRoom) (ht : t.reports.transmitter = s.reports.transmitter)
    (hm : t.reports.lastServed = s.reports.lastServed) (hl : t.reports.relayHead = s.reports.relayHead)
    (hh : t.reports.reportHead.isSome = s.reports.reportHead.isSome) :
    (reportFilled before t).reports.transmitter = (reportFilled before s).reports.transmitter ∧
      (reportFilled before t).reports.lastServed = (reportFilled before s).reports.lastServed := by
  simp only [reportFilled, hh]
  split
  · exact startTransmission_heads hu hr ht hm hl hh
  · exact ⟨ht, hm⟩

/-! ### The laws of the unit stand, and nothing is left to decide -/

/-- The queue chosen has a packet at its head. -/
theorem choice_head {r : ReportUnit} {q : QueueName} (h : r.choice = some q) : (r.headOf q).isSome = true := by
  unfold ReportUnit.choice at h
  split at h
  · simp at h
  · next h1 _ => cases h; simp [ReportUnit.headOf, h1]
  · next h2 => cases h; simp [ReportUnit.headOf, h2]
  · next h1 h2 => cases h; split <;> simp [ReportUnit.headOf, h1, h2]

theorem choice_none {r : ReportUnit} (h : r.choice = none) : r.reportHead = none ∧ r.relayHead = none := by
  unfold ReportUnit.choice at h
  split at h <;> simp_all

theorem startTransmission_legal {s : State} (h : s.reports.Legal) : (startTransmission s).reports.Legal := by
  rcases startTransmission_cases s with ⟨e, -⟩ | ⟨hu, -, ⟨q, ht, e⟩ | ⟨q, -, hc, e⟩⟩
  · rwa [e]
  all_goals
    have hl : s.reports.outputLaneUp = true := by
      simp only [State.retOutUp, Bool.and_eq_true] at hu; exact hu.2
    rw [e]
  · exact { h with
      sending := fun q' h' => by cases h'; have := h.abandoned q ht; exact ⟨by cases q <;> exact this, hl⟩
      abandoned := fun q' h' => by cases h' }
  · exact { h with
      sending := fun q' h' => by cases h'; have := choice_head hc; exact ⟨by cases q <;> exact this, hl⟩
      abandoned := fun q' h' => by cases h' }

theorem reportFilled_legal {s : State} (h : s.reports.Legal) (before : ReportUnit) : (reportFilled before s).reports.Legal := by
  rcases reportFilled_cases before s with e | e <;> rw [e]
  · exact h
  · exact startTransmission_legal h

/-- After a decision nothing is left to decide. -/
theorem startTransmission_settled (s : State) : (startTransmission s).ArbiterSettled := by
  rcases startTransmission_cases s with ⟨e, h⟩ | ⟨-, -, ⟨q, -, e⟩ | ⟨q, -, -, e⟩⟩ <;> rw [e]
  · intro hu hr
    rcases h hu hr with ⟨q, hq⟩ | ⟨hf, hc⟩
    · simp [hq]
    · simp [hf, choice_none hc]
  · intro _ _; simp
  · intro _ _; simp

/-- A state with nothing to decide stays one when reports are filled behind, or into, its queue. -/
theorem reportFilled_settled {s t : State} (h : s.ArbiterSettled) (hu : t.retOutUp = s.retOutUp)
    (hr : t.upstreamRoom = s.upstreamRoom) (ht : t.reports.transmitter = s.reports.transmitter)
    (hl : t.reports.relayHead = s.reports.relayHead) : (reportFilled s.reports t).ArbiterSettled := by
  cases hb : s.reports.reportHead with
  | none =>
    cases hs : t.reports.reportHead with
    | some b => rw [reportFilled_decides hb (by simp [hs])]; exact startTransmission_settled t
    | none =>
      rw [reportFilled_nothing hs]
      intro a b
      have := h (hu ▸ a) (hr ▸ b)
      rw [ht, hl, hs]
      exact ⟨fun f => ⟨rfl, (this.1 f).2⟩, this.2⟩
  | some b =>
    rw [reportFilled_behind (by simp [hb])]
    intro a c
    have := h (hu ▸ a) (hr ▸ c)
    rw [ht]
    refine ⟨fun f => ?_, this.2⟩
    have := (this.1 f).1
    rw [hb] at this
    cases this

/-- In a state with nothing to decide the decision does nothing. -/
theorem startTransmission_idle {s : State} (h : s.ArbiterSettled) : startTransmission s = s := by
  rcases startTransmission_cases s with ⟨e, -⟩ | ⟨hu, hr, ⟨q, ht, -⟩ | ⟨q, ht, hc, -⟩⟩
  · exact e
  · exact absurd ht ((h hu hr).2 q)
  · have := choice_head hc
    have := (h hu hr).1 ht
    cases q <;> simp_all [ReportUnit.headOf]

end Sys2Proof.Machine
end

