-- ==== Sys2Proof/Laws/Frames.lean ====
section
/-! SUPPORT. The fields each operation with cases leaves alone, as Laws/State.lean says for the plain updates. -/

set_option Elab.async false

namespace Sys2Proof.Machine

variable (s : State)

/-! `latchSummary` -/
@[simp] theorem latchSummary_resetAsserted (b : Bool) : (latchSummary b s).resetAsserted = s.resetAsserted := by unfold latchSummary; simp only []; split <;> rfl
@[simp] theorem latchSummary_unitAddress (b : Bool) : (latchSummary b s).unitAddress = s.unitAddress := by unfold latchSummary; simp only []; split <;> rfl
@[simp] theorem latchSummary_fwdInUp (b : Bool) : (latchSummary b s).fwdInUp = s.fwdInUp := by unfold latchSummary; simp only []; split <;> rfl
@[simp] theorem latchSummary_fwdOutUp (b : Bool) : (latchSummary b s).fwdOutUp = s.fwdOutUp := by unfold latchSummary; simp only []; split <;> rfl
@[simp] theorem latchSummary_drains (b : Bool) : (latchSummary b s).drains = s.drains := by unfold latchSummary; simp only []; split <;> rfl
@[simp] theorem latchSummary_upstreamRoom (b : Bool) : (latchSummary b s).upstreamRoom = s.upstreamRoom := by unfold latchSummary; simp only []; split <;> rfl
@[simp] theorem latchSummary_tracker (b : Bool) : (latchSummary b s).tracker = s.tracker := by unfold latchSummary; simp only []; split <;> rfl
@[simp] theorem latchSummary_filter (b : Bool) : (latchSummary b s).filter = s.filter := by unfold latchSummary; simp only []; split <;> rfl
@[simp] theorem latchSummary_session (b : Bool) : (latchSummary b s).session = s.session := by unfold latchSummary; simp only []; split <;> rfl
@[simp] theorem latchSummary_objects (b : Bool) : (latchSummary b s).objects = s.objects := by unfold latchSummary; simp only []; split <;> rfl
@[simp] theorem latchSummary_generations (b : Bool) : (latchSummary b s).generations = s.generations := by unfold latchSummary; simp only []; split <;> rfl
@[simp] theorem latchSummary_images (b : Bool) : (latchSummary b s).images = s.images := by unfold latchSummary; simp only []; split <;> rfl
@[simp] theorem latchSummary_palettes (b : Bool) : (latchSummary b s).palettes = s.palettes := by unfold latchSummary; simp only []; split <;> rfl
@[simp] theorem latchSummary_fwdSent (b : Bool) : (latchSummary b s).fwdSent = s.fwdSent := by unfold latchSummary; simp only []; split <;> rfl
@[simp] theorem latchSummary_retSent (b : Bool) : (latchSummary b s).retSent = s.retSent := by unfold latchSummary; simp only []; split <;> rfl
@[simp] theorem latchSummary_pending (b : Bool) : (latchSummary b s).pending = s.pending := by unfold latchSummary; simp only []; split <;> rfl

/-! `stopCompositing` -/
@[simp] theorem stopCompositing_resetAsserted : (stopCompositing s).resetAsserted = s.resetAsserted := by unfold stopCompositing; split <;> simp
@[simp] theorem stopCompositing_unitAddress : (stopCompositing s).unitAddress = s.unitAddress := by unfold stopCompositing; split <;> simp
@[simp] theorem stopCompositing_fwdInUp : (stopCompositing s).fwdInUp = s.fwdInUp := by unfold stopCompositing; split <;> simp
@[simp] theorem stopCompositing_fwdOutUp : (stopCompositing s).fwdOutUp = s.fwdOutUp := by unfold stopCompositing; split <;> simp
@[simp] theorem stopCompositing_drains : (stopCompositing s).drains = s.drains := by unfold stopCompositing; split <;> simp
@[simp] theorem stopCompositing_upstreamRoom : (stopCompositing s).upstreamRoom = s.upstreamRoom := by unfold stopCompositing; split <;> simp
@[simp] theorem stopCompositing_tracker : (stopCompositing s).tracker = s.tracker := by unfold stopCompositing; split <;> simp
@[simp] theorem stopCompositing_filter : (stopCompositing s).filter = s.filter := by unfold stopCompositing; split <;> simp
@[simp] theorem stopCompositing_session : (stopCompositing s).session = s.session := by unfold stopCompositing; split <;> simp
@[simp] theorem stopCompositing_objects : (stopCompositing s).objects = s.objects := by unfold stopCompositing; split <;> simp
@[simp] theorem stopCompositing_generations : (stopCompositing s).generations = s.generations := by unfold stopCompositing; split <;> simp
@[simp] theorem stopCompositing_images : (stopCompositing s).images = s.images := by unfold stopCompositing; split <;> simp
@[simp] theorem stopCompositing_palettes : (stopCompositing s).palettes = s.palettes := by unfold stopCompositing; split <;> simp
@[simp] theorem stopCompositing_fwdSent : (stopCompositing s).fwdSent = s.fwdSent := by unfold stopCompositing; split <;> simp
@[simp] theorem stopCompositing_retSent : (stopCompositing s).retSent = s.retSent := by unfold stopCompositing; split <;> simp
@[simp] theorem stopCompositing_pending : (stopCompositing s).pending = s.pending := by unfold stopCompositing; split <;> simp

/-! `endCompositedFrame` -/
@[simp] theorem endCompositedFrame_resetAsserted : (endCompositedFrame s).resetAsserted = s.resetAsserted := by unfold endCompositedFrame; split <;> simp
@[simp] theorem endCompositedFrame_unitAddress : (endCompositedFrame s).unitAddress = s.unitAddress := by unfold endCompositedFrame; split <;> simp
@[simp] theorem endCompositedFrame_fwdInUp : (endCompositedFrame s).fwdInUp = s.fwdInUp := by unfold endCompositedFrame; split <;> simp
@[simp] theorem endCompositedFrame_fwdOutUp : (endCompositedFrame s).fwdOutUp = s.fwdOutUp := by unfold endCompositedFrame; split <;> simp
@[simp] theorem endCompositedFrame_drains : (endCompositedFrame s).drains = s.drains := by unfold endCompositedFrame; split <;> simp
@[simp] theorem endCompositedFrame_upstreamRoom : (endCompositedFrame s).upstreamRoom = s.upstreamRoom := by unfold endCompositedFrame; split <;> simp
@[simp] theorem endCompositedFrame_tracker : (endCompositedFrame s).tracker = s.tracker := by unfold endCompositedFrame; split <;> simp
@[simp] theorem endCompositedFrame_filter : (endCompositedFrame s).filter = s.filter := by unfold endCompositedFrame; split <;> simp
@[simp] theorem endCompositedFrame_session : (endCompositedFrame s).session = s.session := by unfold endCompositedFrame; split <;> simp
@[simp] theorem endCompositedFrame_objects : (endCompositedFrame s).objects = s.objects := by unfold endCompositedFrame; split <;> simp
@[simp] theorem endCompositedFrame_generations : (endCompositedFrame s).generations = s.generations := by unfold endCompositedFrame; split <;> simp
@[simp] theorem endCompositedFrame_images : (endCompositedFrame s).images = s.images := by unfold endCompositedFrame; split <;> simp
@[simp] theorem endCompositedFrame_palettes : (endCompositedFrame s).palettes = s.palettes := by unfold endCompositedFrame; split <;> simp
@[simp] theorem endCompositedFrame_fwdSent : (endCompositedFrame s).fwdSent = s.fwdSent := by unfold endCompositedFrame; split <;> simp
@[simp] theorem endCompositedFrame_retSent : (endCompositedFrame s).retSent = s.retSent := by unfold endCompositedFrame; split <;> simp
@[simp] theorem endCompositedFrame_pending : (endCompositedFrame s).pending = s.pending := by unfold endCompositedFrame; split <;> simp

/-! `buildLine` -/
@[simp] theorem buildLine_resetAsserted : (buildLine s).resetAsserted = s.resetAsserted := by unfold buildLine; split <;> rfl
@[simp] theorem buildLine_unitAddress : (buildLine s).unitAddress = s.unitAddress := by unfold buildLine; split <;> rfl
@[simp] theorem buildLine_fwdInUp : (buildLine s).fwdInUp = s.fwdInUp := by unfold buildLine; split <;> rfl
@[simp] theorem buildLine_fwdOutUp : (buildLine s).fwdOutUp = s.fwdOutUp := by unfold buildLine; split <;> rfl
@[simp] theorem buildLine_drains : (buildLine s).drains = s.drains := by unfold buildLine; split <;> rfl
@[simp] theorem buildLine_upstreamRoom : (buildLine s).upstreamRoom = s.upstreamRoom := by unfold buildLine; split <;> rfl
@[simp] theorem buildLine_tracker : (buildLine s).tracker = s.tracker := by unfold buildLine; split <;> rfl
@[simp] theorem buildLine_filter : (buildLine s).filter = s.filter := by unfold buildLine; split <;> rfl
@[simp] theorem buildLine_session : (buildLine s).session = s.session := by unfold buildLine; split <;> rfl
@[simp] theorem buildLine_objects : (buildLine s).objects = s.objects := by unfold buildLine; split <;> rfl
@[simp] theorem buildLine_generations : (buildLine s).generations = s.generations := by unfold buildLine; split <;> rfl
@[simp] theorem buildLine_images : (buildLine s).images = s.images := by unfold buildLine; split <;> rfl
@[simp] theorem buildLine_palettes : (buildLine s).palettes = s.palettes := by unfold buildLine; split <;> rfl
@[simp] theorem buildLine_reports : (buildLine s).reports = s.reports := by unfold buildLine; split <;> rfl
@[simp] theorem buildLine_fwdSent : (buildLine s).fwdSent = s.fwdSent := by unfold buildLine; split <;> rfl
@[simp] theorem buildLine_retSent : (buildLine s).retSent = s.retSent := by unfold buildLine; split <;> rfl
@[simp] theorem buildLine_pending : (buildLine s).pending = s.pending := by unfold buildLine; split <;> rfl

/-! `finishDrain` -/
@[simp] theorem finishDrain_resetAsserted (rest : List Nat) : (finishDrain rest s).resetAsserted = s.resetAsserted := by unfold finishDrain; dsimp only; split <;> rfl
@[simp] theorem finishDrain_unitAddress (rest : List Nat) : (finishDrain rest s).unitAddress = s.unitAddress := by unfold finishDrain; dsimp only; split <;> rfl
@[simp] theorem finishDrain_fwdInUp (rest : List Nat) : (finishDrain rest s).fwdInUp = s.fwdInUp := by unfold finishDrain; dsimp only; split <;> rfl
@[simp] theorem finishDrain_upstreamRoom (rest : List Nat) : (finishDrain rest s).upstreamRoom = s.upstreamRoom := by unfold finishDrain; dsimp only; split <;> rfl
@[simp] theorem finishDrain_tracker (rest : List Nat) : (finishDrain rest s).tracker = s.tracker := by unfold finishDrain; dsimp only; split <;> rfl
@[simp] theorem finishDrain_filter (rest : List Nat) : (finishDrain rest s).filter = s.filter := by unfold finishDrain; dsimp only; split <;> rfl
@[simp] theorem finishDrain_session (rest : List Nat) : (finishDrain rest s).session = s.session := by unfold finishDrain; dsimp only; split <;> rfl
@[simp] theorem finishDrain_objects (rest : List Nat) : (finishDrain rest s).objects = s.objects := by unfold finishDrain; dsimp only; split <;> rfl
@[simp] theorem finishDrain_generations (rest : List Nat) : (finishDrain rest s).generations = s.generations := by unfold finishDrain; dsimp only; split <;> rfl
@[simp] theorem finishDrain_images (rest : List Nat) : (finishDrain rest s).images = s.images := by unfold finishDrain; dsimp only; split <;> rfl
@[simp] theorem finishDrain_palettes (rest : List Nat) : (finishDrain rest s).palettes = s.palettes := by unfold finishDrain; dsimp only; split <;> rfl
@[simp] theorem finishDrain_compositor (rest : List Nat) : (finishDrain rest s).compositor = s.compositor := by unfold finishDrain; dsimp only; split <;> rfl
@[simp] theorem finishDrain_reports (rest : List Nat) : (finishDrain rest s).reports = s.reports := by unfold finishDrain; dsimp only; split <;> rfl
@[simp] theorem finishDrain_retSent (rest : List Nat) : (finishDrain rest s).retSent = s.retSent := by unfold finishDrain; dsimp only; split <;> rfl
@[simp] theorem finishDrain_pending (rest : List Nat) : (finishDrain rest s).pending = s.pending := by unfold finishDrain; dsimp only; split <;> rfl

/-! `countDrained` -/
@[simp] theorem countDrained_resetAsserted : (countDrained s).resetAsserted = s.resetAsserted := by unfold countDrained; split <;> [rfl; (split <;> simp)]
@[simp] theorem countDrained_unitAddress : (countDrained s).unitAddress = s.unitAddress := by unfold countDrained; split <;> [rfl; (split <;> simp)]
@[simp] theorem countDrained_fwdInUp : (countDrained s).fwdInUp = s.fwdInUp := by unfold countDrained; split <;> [rfl; (split <;> simp)]
@[simp] theorem countDrained_upstreamRoom : (countDrained s).upstreamRoom = s.upstreamRoom := by unfold countDrained; split <;> [rfl; (split <;> simp)]
@[simp] theorem countDrained_tracker : (countDrained s).tracker = s.tracker := by unfold countDrained; split <;> [rfl; (split <;> simp)]
@[simp] theorem countDrained_filter : (countDrained s).filter = s.filter := by unfold countDrained; split <;> [rfl; (split <;> simp)]
@[simp] theorem countDrained_session : (countDrained s).session = s.session := by unfold countDrained; split <;> [rfl; (split <;> simp)]
@[simp] theorem countDrained_objects : (countDrained s).objects = s.objects := by unfold countDrained; split <;> [rfl; (split <;> simp)]
@[simp] theorem countDrained_generations : (countDrained s).generations = s.generations := by unfold countDrained; split <;> [rfl; (split <;> simp)]
@[simp] theorem countDrained_images : (countDrained s).images = s.images := by unfold countDrained; split <;> [rfl; (split <;> simp)]
@[simp] theorem countDrained_palettes : (countDrained s).palettes = s.palettes := by unfold countDrained; split <;> [rfl; (split <;> simp)]
@[simp] theorem countDrained_compositor : (countDrained s).compositor = s.compositor := by unfold countDrained; split <;> [rfl; (split <;> simp)]
@[simp] theorem countDrained_reports : (countDrained s).reports = s.reports := by unfold countDrained; split <;> [rfl; (split <;> simp)]
@[simp] theorem countDrained_retSent : (countDrained s).retSent = s.retSent := by unfold countDrained; split <;> [rfl; (split <;> simp)]
@[simp] theorem countDrained_pending : (countDrained s).pending = s.pending := by unfold countDrained; split <;> [rfl; (split <;> simp)]

/-! `outputSlot` -/
@[simp] theorem outputSlot_resetAsserted : (outputSlot s).resetAsserted = s.resetAsserted := by unfold outputSlot; split <;> [rfl; (split <;> simp)]
@[simp] theorem outputSlot_unitAddress : (outputSlot s).unitAddress = s.unitAddress := by unfold outputSlot; split <;> [rfl; (split <;> simp)]
@[simp] theorem outputSlot_fwdInUp : (outputSlot s).fwdInUp = s.fwdInUp := by unfold outputSlot; split <;> [rfl; (split <;> simp)]
@[simp] theorem outputSlot_upstreamRoom : (outputSlot s).upstreamRoom = s.upstreamRoom := by unfold outputSlot; split <;> [rfl; (split <;> simp)]
@[simp] theorem outputSlot_tracker : (outputSlot s).tracker = s.tracker := by unfold outputSlot; split <;> [rfl; (split <;> simp)]
@[simp] theorem outputSlot_session : (outputSlot s).session = s.session := by unfold outputSlot; split <;> [rfl; (split <;> simp)]
@[simp] theorem outputSlot_objects : (outputSlot s).objects = s.objects := by unfold outputSlot; split <;> [rfl; (split <;> simp)]
@[simp] theorem outputSlot_generations : (outputSlot s).generations = s.generations := by unfold outputSlot; split <;> [rfl; (split <;> simp)]
@[simp] theorem outputSlot_images : (outputSlot s).images = s.images := by unfold outputSlot; split <;> [rfl; (split <;> simp)]
@[simp] theorem outputSlot_palettes : (outputSlot s).palettes = s.palettes := by unfold outputSlot; split <;> [rfl; (split <;> simp)]
@[simp] theorem outputSlot_compositor : (outputSlot s).compositor = s.compositor := by unfold outputSlot; split <;> [rfl; (split <;> simp)]
@[simp] theorem outputSlot_reports : (outputSlot s).reports = s.reports := by unfold outputSlot; split <;> [rfl; (split <;> simp)]
@[simp] theorem outputSlot_retSent : (outputSlot s).retSent = s.retSent := by unfold outputSlot; split <;> [rfl; (split <;> simp)]
@[simp] theorem outputSlot_pending : (outputSlot s).pending = s.pending := by unfold outputSlot; split <;> [rfl; (split <;> simp)]

/-! `endOpenPacket` -/
@[simp] theorem endOpenPacket_resetAsserted : (endOpenPacket s).resetAsserted = s.resetAsserted := by unfold endOpenPacket; split <;> simp
@[simp] theorem endOpenPacket_unitAddress : (endOpenPacket s).unitAddress = s.unitAddress := by unfold endOpenPacket; split <;> simp
@[simp] theorem endOpenPacket_fwdInUp : (endOpenPacket s).fwdInUp = s.fwdInUp := by unfold endOpenPacket; split <;> simp
@[simp] theorem endOpenPacket_fwdOutUp : (endOpenPacket s).fwdOutUp = s.fwdOutUp := by unfold endOpenPacket; split <;> simp
@[simp] theorem endOpenPacket_drains : (endOpenPacket s).drains = s.drains := by unfold endOpenPacket; split <;> simp
@[simp] theorem endOpenPacket_upstreamRoom : (endOpenPacket s).upstreamRoom = s.upstreamRoom := by unfold endOpenPacket; split <;> simp
@[simp] theorem endOpenPacket_tracker : (endOpenPacket s).tracker = s.tracker := by unfold endOpenPacket; split <;> simp
@[simp] theorem endOpenPacket_session : (endOpenPacket s).session = s.session := by unfold endOpenPacket; split <;> simp
@[simp] theorem endOpenPacket_objects : (endOpenPacket s).objects = s.objects := by unfold endOpenPacket; split <;> simp
@[simp] theorem endOpenPacket_generations : (endOpenPacket s).generations = s.generations := by unfold endOpenPacket; split <;> simp
@[simp] theorem endOpenPacket_images : (endOpenPacket s).images = s.images := by unfold endOpenPacket; split <;> simp
@[simp] theorem endOpenPacket_palettes : (endOpenPacket s).palettes = s.palettes := by unfold endOpenPacket; split <;> simp
@[simp] theorem endOpenPacket_compositor : (endOpenPacket s).compositor = s.compositor := by unfold endOpenPacket; split <;> simp
@[simp] theorem endOpenPacket_fwdSent : (endOpenPacket s).fwdSent = s.fwdSent := by unfold endOpenPacket; split <;> simp
@[simp] theorem endOpenPacket_retSent : (endOpenPacket s).retSent = s.retSent := by unfold endOpenPacket; split <;> simp
@[simp] theorem endOpenPacket_pending : (endOpenPacket s).pending = s.pending := by unfold endOpenPacket; split <;> simp

/-! `filterRaster` -/
@[simp] theorem filterRaster_resetAsserted (x : FwdSymbol) : (filterRaster x s).resetAsserted = s.resetAsserted := by simp [filterRaster]
@[simp] theorem filterRaster_unitAddress (x : FwdSymbol) : (filterRaster x s).unitAddress = s.unitAddress := by simp [filterRaster]
@[simp] theorem filterRaster_fwdInUp (x : FwdSymbol) : (filterRaster x s).fwdInUp = s.fwdInUp := by simp [filterRaster]
@[simp] theorem filterRaster_fwdOutUp (x : FwdSymbol) : (filterRaster x s).fwdOutUp = s.fwdOutUp := by simp [filterRaster]
@[simp] theorem filterRaster_drains (x : FwdSymbol) : (filterRaster x s).drains = s.drains := by simp [filterRaster]
@[simp] theorem filterRaster_upstreamRoom (x : FwdSymbol) : (filterRaster x s).upstreamRoom = s.upstreamRoom := by simp [filterRaster]
@[simp] theorem filterRaster_tracker (x : FwdSymbol) : (filterRaster x s).tracker = s.tracker := by simp [filterRaster]
@[simp] theorem filterRaster_session (x : FwdSymbol) : (filterRaster x s).session = s.session := by simp [filterRaster]
@[simp] theorem filterRaster_objects (x : FwdSymbol) : (filterRaster x s).objects = s.objects := by simp [filterRaster]
@[simp] theorem filterRaster_generations (x : FwdSymbol) : (filterRaster x s).generations = s.generations := by simp [filterRaster]
@[simp] theorem filterRaster_images (x : FwdSymbol) : (filterRaster x s).images = s.images := by simp [filterRaster]
@[simp] theorem filterRaster_palettes (x : FwdSymbol) : (filterRaster x s).palettes = s.palettes := by simp [filterRaster]
@[simp] theorem filterRaster_compositor (x : FwdSymbol) : (filterRaster x s).compositor = s.compositor := by simp [filterRaster]
@[simp] theorem filterRaster_fwdSent (x : FwdSymbol) : (filterRaster x s).fwdSent = s.fwdSent := by simp [filterRaster]
@[simp] theorem filterRaster_retSent (x : FwdSymbol) : (filterRaster x s).retSent = s.retSent := by simp [filterRaster]
@[simp] theorem filterRaster_pending (x : FwdSymbol) : (filterRaster x s).pending = s.pending := by simp [filterRaster]

/-! `filterPacketStart` -/
@[simp] theorem filterPacketStart_resetAsserted : (filterPacketStart s).resetAsserted = s.resetAsserted := by unfold filterPacketStart; simp only []; split <;> simp
@[simp] theorem filterPacketStart_unitAddress : (filterPacketStart s).unitAddress = s.unitAddress := by unfold filterPacketStart; simp only []; split <;> simp
@[simp] theorem filterPacketStart_fwdInUp : (filterPacketStart s).fwdInUp = s.fwdInUp := by unfold filterPacketStart; simp only []; split <;> simp
@[simp] theorem filterPacketStart_fwdOutUp : (filterPacketStart s).fwdOutUp = s.fwdOutUp := by unfold filterPacketStart; simp only []; split <;> simp
@[simp] theorem filterPacketStart_drains : (filterPacketStart s).drains = s.drains := by unfold filterPacketStart; simp only []; split <;> simp
@[simp] theorem filterPacketStart_upstreamRoom : (filterPacketStart s).upstreamRoom = s.upstreamRoom := by unfold filterPacketStart; simp only []; split <;> simp
@[simp] theorem filterPacketStart_tracker : (filterPacketStart s).tracker = s.tracker := by unfold filterPacketStart; simp only []; split <;> simp
@[simp] theorem filterPacketStart_session : (filterPacketStart s).session = s.session := by unfold filterPacketStart; simp only []; split <;> simp
@[simp] theorem filterPacketStart_objects : (filterPacketStart s).objects = s.objects := by unfold filterPacketStart; simp only []; split <;> simp
@[simp] theorem filterPacketStart_generations : (filterPacketStart s).generations = s.generations := by unfold filterPacketStart; simp only []; split <;> simp
@[simp] theorem filterPacketStart_images : (filterPacketStart s).images = s.images := by unfold filterPacketStart; simp only []; split <;> simp
@[simp] theorem filterPacketStart_palettes : (filterPacketStart s).palettes = s.palettes := by unfold filterPacketStart; simp only []; split <;> simp
@[simp] theorem filterPacketStart_compositor : (filterPacketStart s).compositor = s.compositor := by unfold filterPacketStart; simp only []; split <;> simp
@[simp] theorem filterPacketStart_fwdSent : (filterPacketStart s).fwdSent = s.fwdSent := by unfold filterPacketStart; simp only []; split <;> simp
@[simp] theorem filterPacketStart_retSent : (filterPacketStart s).retSent = s.retSent := by unfold filterPacketStart; simp only []; split <;> simp
@[simp] theorem filterPacketStart_pending : (filterPacketStart s).pending = s.pending := by unfold filterPacketStart; simp only []; split <;> simp

/-! `holdByte` -/
@[simp] theorem holdByte_resetAsserted (b : Byte) : (holdByte b s).resetAsserted = s.resetAsserted := by unfold holdByte; simp only []; repeat (first | rfl | split)
@[simp] theorem holdByte_unitAddress (b : Byte) : (holdByte b s).unitAddress = s.unitAddress := by unfold holdByte; simp only []; repeat (first | rfl | split)
@[simp] theorem holdByte_fwdInUp (b : Byte) : (holdByte b s).fwdInUp = s.fwdInUp := by unfold holdByte; simp only []; repeat (first | rfl | split)
@[simp] theorem holdByte_fwdOutUp (b : Byte) : (holdByte b s).fwdOutUp = s.fwdOutUp := by unfold holdByte; simp only []; repeat (first | rfl | split)
@[simp] theorem holdByte_drains (b : Byte) : (holdByte b s).drains = s.drains := by unfold holdByte; simp only []; repeat (first | rfl | split)
@[simp] theorem holdByte_upstreamRoom (b : Byte) : (holdByte b s).upstreamRoom = s.upstreamRoom := by unfold holdByte; simp only []; repeat (first | rfl | split)
@[simp] theorem holdByte_tracker (b : Byte) : (holdByte b s).tracker = s.tracker := by unfold holdByte; simp only []; repeat (first | rfl | split)
@[simp] theorem holdByte_session (b : Byte) : (holdByte b s).session = s.session := by unfold holdByte; simp only []; repeat (first | rfl | split)
@[simp] theorem holdByte_objects (b : Byte) : (holdByte b s).objects = s.objects := by unfold holdByte; simp only []; repeat (first | rfl | split)
@[simp] theorem holdByte_generations (b : Byte) : (holdByte b s).generations = s.generations := by unfold holdByte; simp only []; repeat (first | rfl | split)
@[simp] theorem holdByte_images (b : Byte) : (holdByte b s).images = s.images := by unfold holdByte; simp only []; repeat (first | rfl | split)
@[simp] theorem holdByte_palettes (b : Byte) : (holdByte b s).palettes = s.palettes := by unfold holdByte; simp only []; repeat (first | rfl | split)
@[simp] theorem holdByte_compositor (b : Byte) : (holdByte b s).compositor = s.compositor := by unfold holdByte; simp only []; repeat (first | rfl | split)
@[simp] theorem holdByte_reports (b : Byte) : (holdByte b s).reports = s.reports := by unfold holdByte; simp only []; repeat (first | rfl | split)
@[simp] theorem holdByte_fwdSent (b : Byte) : (holdByte b s).fwdSent = s.fwdSent := by unfold holdByte; simp only []; repeat (first | rfl | split)
@[simp] theorem holdByte_retSent (b : Byte) : (holdByte b s).retSent = s.retSent := by unfold holdByte; simp only []; repeat (first | rfl | split)
@[simp] theorem holdByte_pending (b : Byte) : (holdByte b s).pending = s.pending := by unfold holdByte; simp only []; repeat (first | rfl | split)

/-! `filterPacketByte` -/
@[simp] theorem filterPacketByte_resetAsserted (b : Byte) : (filterPacketByte b s).resetAsserted = s.resetAsserted := by unfold filterPacketByte; split <;> simp
@[simp] theorem filterPacketByte_unitAddress (b : Byte) : (filterPacketByte b s).unitAddress = s.unitAddress := by unfold filterPacketByte; split <;> simp
@[simp] theorem filterPacketByte_fwdInUp (b : Byte) : (filterPacketByte b s).fwdInUp = s.fwdInUp := by unfold filterPacketByte; split <;> simp
@[simp] theorem filterPacketByte_fwdOutUp (b : Byte) : (filterPacketByte b s).fwdOutUp = s.fwdOutUp := by unfold filterPacketByte; split <;> simp
@[simp] theorem filterPacketByte_drains (b : Byte) : (filterPacketByte b s).drains = s.drains := by unfold filterPacketByte; split <;> simp
@[simp] theorem filterPacketByte_upstreamRoom (b : Byte) : (filterPacketByte b s).upstreamRoom = s.upstreamRoom := by unfold filterPacketByte; split <;> simp
@[simp] theorem filterPacketByte_tracker (b : Byte) : (filterPacketByte b s).tracker = s.tracker := by unfold filterPacketByte; split <;> simp
@[simp] theorem filterPacketByte_session (b : Byte) : (filterPacketByte b s).session = s.session := by unfold filterPacketByte; split <;> simp
@[simp] theorem filterPacketByte_objects (b : Byte) : (filterPacketByte b s).objects = s.objects := by unfold filterPacketByte; split <;> simp
@[simp] theorem filterPacketByte_generations (b : Byte) : (filterPacketByte b s).generations = s.generations := by unfold filterPacketByte; split <;> simp
@[simp] theorem filterPacketByte_images (b : Byte) : (filterPacketByte b s).images = s.images := by unfold filterPacketByte; split <;> simp
@[simp] theorem filterPacketByte_palettes (b : Byte) : (filterPacketByte b s).palettes = s.palettes := by unfold filterPacketByte; split <;> simp
@[simp] theorem filterPacketByte_compositor (b : Byte) : (filterPacketByte b s).compositor = s.compositor := by unfold filterPacketByte; split <;> simp
@[simp] theorem filterPacketByte_reports (b : Byte) : (filterPacketByte b s).reports = s.reports := by unfold filterPacketByte; split <;> simp
@[simp] theorem filterPacketByte_fwdSent (b : Byte) : (filterPacketByte b s).fwdSent = s.fwdSent := by unfold filterPacketByte; split <;> simp
@[simp] theorem filterPacketByte_retSent (b : Byte) : (filterPacketByte b s).retSent = s.retSent := by unfold filterPacketByte; split <;> simp
@[simp] theorem filterPacketByte_pending (b : Byte) : (filterPacketByte b s).pending = s.pending := by unfold filterPacketByte; split <;> simp

/-! `filterIdle` -/
@[simp] theorem filterIdle_resetAsserted : (filterIdle s).resetAsserted = s.resetAsserted := by unfold filterIdle; split <;> simp
@[simp] theorem filterIdle_unitAddress : (filterIdle s).unitAddress = s.unitAddress := by unfold filterIdle; split <;> simp
@[simp] theorem filterIdle_fwdInUp : (filterIdle s).fwdInUp = s.fwdInUp := by unfold filterIdle; split <;> simp
@[simp] theorem filterIdle_fwdOutUp : (filterIdle s).fwdOutUp = s.fwdOutUp := by unfold filterIdle; split <;> simp
@[simp] theorem filterIdle_drains : (filterIdle s).drains = s.drains := by unfold filterIdle; split <;> simp
@[simp] theorem filterIdle_upstreamRoom : (filterIdle s).upstreamRoom = s.upstreamRoom := by unfold filterIdle; split <;> simp
@[simp] theorem filterIdle_tracker : (filterIdle s).tracker = s.tracker := by unfold filterIdle; split <;> simp
@[simp] theorem filterIdle_session : (filterIdle s).session = s.session := by unfold filterIdle; split <;> simp
@[simp] theorem filterIdle_objects : (filterIdle s).objects = s.objects := by unfold filterIdle; split <;> simp
@[simp] theorem filterIdle_generations : (filterIdle s).generations = s.generations := by unfold filterIdle; split <;> simp
@[simp] theorem filterIdle_images : (filterIdle s).images = s.images := by unfold filterIdle; split <;> simp
@[simp] theorem filterIdle_palettes : (filterIdle s).palettes = s.palettes := by unfold filterIdle; split <;> simp
@[simp] theorem filterIdle_compositor : (filterIdle s).compositor = s.compositor := by unfold filterIdle; split <;> simp
@[simp] theorem filterIdle_reports : (filterIdle s).reports = s.reports := by unfold filterIdle; split <;> simp
@[simp] theorem filterIdle_fwdSent : (filterIdle s).fwdSent = s.fwdSent := by unfold filterIdle; split <;> simp
@[simp] theorem filterIdle_retSent : (filterIdle s).retSent = s.retSent := by unfold filterIdle; split <;> simp
@[simp] theorem filterIdle_pending : (filterIdle s).pending = s.pending := by unfold filterIdle; split <;> simp

/-! `takeFault` -/
@[simp] theorem takeFault_resetAsserted (k : FaultKind) : (takeFault k s).resetAsserted = s.resetAsserted := by simp [takeFault]
@[simp] theorem takeFault_unitAddress (k : FaultKind) : (takeFault k s).unitAddress = s.unitAddress := by simp [takeFault]
@[simp] theorem takeFault_fwdInUp (k : FaultKind) : (takeFault k s).fwdInUp = s.fwdInUp := by simp [takeFault]
@[simp] theorem takeFault_fwdOutUp (k : FaultKind) : (takeFault k s).fwdOutUp = s.fwdOutUp := by simp [takeFault]
@[simp] theorem takeFault_drains (k : FaultKind) : (takeFault k s).drains = s.drains := by simp [takeFault]
@[simp] theorem takeFault_upstreamRoom (k : FaultKind) : (takeFault k s).upstreamRoom = s.upstreamRoom := by simp [takeFault]
@[simp] theorem takeFault_filter (k : FaultKind) : (takeFault k s).filter = s.filter := by simp [takeFault]
@[simp] theorem takeFault_session (k : FaultKind) : (takeFault k s).session = s.session := by simp [takeFault]
@[simp] theorem takeFault_objects (k : FaultKind) : (takeFault k s).objects = s.objects := by simp [takeFault]
@[simp] theorem takeFault_generations (k : FaultKind) : (takeFault k s).generations = s.generations := by simp [takeFault]
@[simp] theorem takeFault_images (k : FaultKind) : (takeFault k s).images = s.images := by simp [takeFault]
@[simp] theorem takeFault_palettes (k : FaultKind) : (takeFault k s).palettes = s.palettes := by simp [takeFault]
@[simp] theorem takeFault_fwdSent (k : FaultKind) : (takeFault k s).fwdSent = s.fwdSent := by simp [takeFault]
@[simp] theorem takeFault_retSent (k : FaultKind) : (takeFault k s).retSent = s.retSent := by simp [takeFault]
@[simp] theorem takeFault_pending (k : FaultKind) : (takeFault k s).pending = s.pending := by simp [takeFault]

/-! `trackSymbol` -/
@[simp] theorem trackSymbol_resetAsserted (x : FwdSymbol) : (trackSymbol x s).resetAsserted = s.resetAsserted := by unfold trackSymbol; simp only []; repeat (first | rfl | (simp; done) | split)
@[simp] theorem trackSymbol_unitAddress (x : FwdSymbol) : (trackSymbol x s).unitAddress = s.unitAddress := by unfold trackSymbol; simp only []; repeat (first | rfl | (simp; done) | split)
@[simp] theorem trackSymbol_fwdInUp (x : FwdSymbol) : (trackSymbol x s).fwdInUp = s.fwdInUp := by unfold trackSymbol; simp only []; repeat (first | rfl | (simp; done) | split)
@[simp] theorem trackSymbol_fwdOutUp (x : FwdSymbol) : (trackSymbol x s).fwdOutUp = s.fwdOutUp := by unfold trackSymbol; simp only []; repeat (first | rfl | (simp; done) | split)
@[simp] theorem trackSymbol_drains (x : FwdSymbol) : (trackSymbol x s).drains = s.drains := by unfold trackSymbol; simp only []; repeat (first | rfl | (simp; done) | split)
@[simp] theorem trackSymbol_upstreamRoom (x : FwdSymbol) : (trackSymbol x s).upstreamRoom = s.upstreamRoom := by unfold trackSymbol; simp only []; repeat (first | rfl | (simp; done) | split)
@[simp] theorem trackSymbol_filter (x : FwdSymbol) : (trackSymbol x s).filter = s.filter := by unfold trackSymbol; simp only []; repeat (first | rfl | (simp; done) | split)
@[simp] theorem trackSymbol_session (x : FwdSymbol) : (trackSymbol x s).session = s.session := by unfold trackSymbol; simp only []; repeat (first | rfl | (simp; done) | split)
@[simp] theorem trackSymbol_objects (x : FwdSymbol) : (trackSymbol x s).objects = s.objects := by unfold trackSymbol; simp only []; repeat (first | rfl | (simp; done) | split)
@[simp] theorem trackSymbol_generations (x : FwdSymbol) : (trackSymbol x s).generations = s.generations := by unfold trackSymbol; simp only []; repeat (first | rfl | (simp; done) | split)
@[simp] theorem trackSymbol_images (x : FwdSymbol) : (trackSymbol x s).images = s.images := by unfold trackSymbol; simp only []; repeat (first | rfl | (simp; done) | split)
@[simp] theorem trackSymbol_palettes (x : FwdSymbol) : (trackSymbol x s).palettes = s.palettes := by unfold trackSymbol; simp only []; repeat (first | rfl | (simp; done) | split)
@[simp] theorem trackSymbol_fwdSent (x : FwdSymbol) : (trackSymbol x s).fwdSent = s.fwdSent := by unfold trackSymbol; simp only []; repeat (first | rfl | (simp; done) | split)
@[simp] theorem trackSymbol_retSent (x : FwdSymbol) : (trackSymbol x s).retSent = s.retSent := by unfold trackSymbol; simp only []; repeat (first | rfl | (simp; done) | split)
@[simp] theorem trackSymbol_pending (x : FwdSymbol) : (trackSymbol x s).pending = s.pending := by unfold trackSymbol; simp only []; repeat (first | rfl | (simp; done) | split)

/-! `trackFrameStart` -/
@[simp] theorem trackFrameStart_resetAsserted : (trackFrameStart s).resetAsserted = s.resetAsserted := by unfold trackFrameStart; simp only []; repeat (first | rfl | (simp; done) | split)
@[simp] theorem trackFrameStart_unitAddress : (trackFrameStart s).unitAddress = s.unitAddress := by unfold trackFrameStart; simp only []; repeat (first | rfl | (simp; done) | split)
@[simp] theorem trackFrameStart_fwdInUp : (trackFrameStart s).fwdInUp = s.fwdInUp := by unfold trackFrameStart; simp only []; repeat (first | rfl | (simp; done) | split)
@[simp] theorem trackFrameStart_fwdOutUp : (trackFrameStart s).fwdOutUp = s.fwdOutUp := by unfold trackFrameStart; simp only []; repeat (first | rfl | (simp; done) | split)
@[simp] theorem trackFrameStart_drains : (trackFrameStart s).drains = s.drains := by unfold trackFrameStart; simp only []; repeat (first | rfl | (simp; done) | split)
@[simp] theorem trackFrameStart_upstreamRoom : (trackFrameStart s).upstreamRoom = s.upstreamRoom := by unfold trackFrameStart; simp only []; repeat (first | rfl | (simp; done) | split)
@[simp] theorem trackFrameStart_filter : (trackFrameStart s).filter = s.filter := by unfold trackFrameStart; simp only []; repeat (first | rfl | (simp; done) | split)
@[simp] theorem trackFrameStart_session : (trackFrameStart s).session = s.session := by unfold trackFrameStart; simp only []; repeat (first | rfl | (simp; done) | split)
@[simp] theorem trackFrameStart_objects : (trackFrameStart s).objects = s.objects := by unfold trackFrameStart; simp only []; repeat (first | rfl | (simp; done) | split)
@[simp] theorem trackFrameStart_generations : (trackFrameStart s).generations = s.generations := by unfold trackFrameStart; simp only []; repeat (first | rfl | (simp; done) | split)
@[simp] theorem trackFrameStart_images : (trackFrameStart s).images = s.images := by unfold trackFrameStart; simp only []; repeat (first | rfl | (simp; done) | split)
@[simp] theorem trackFrameStart_palettes : (trackFrameStart s).palettes = s.palettes := by unfold trackFrameStart; simp only []; repeat (first | rfl | (simp; done) | split)
@[simp] theorem trackFrameStart_fwdSent : (trackFrameStart s).fwdSent = s.fwdSent := by unfold trackFrameStart; simp only []; repeat (first | rfl | (simp; done) | split)
@[simp] theorem trackFrameStart_retSent : (trackFrameStart s).retSent = s.retSent := by unfold trackFrameStart; simp only []; repeat (first | rfl | (simp; done) | split)
@[simp] theorem trackFrameStart_pending : (trackFrameStart s).pending = s.pending := by unfold trackFrameStart; simp only []; repeat (first | rfl | (simp; done) | split)

/-! `trackLinkDown` -/
@[simp] theorem trackLinkDown_resetAsserted : (trackLinkDown s).resetAsserted = s.resetAsserted := by unfold trackLinkDown; simp only []; split <;> simp
@[simp] theorem trackLinkDown_unitAddress : (trackLinkDown s).unitAddress = s.unitAddress := by unfold trackLinkDown; simp only []; split <;> simp
@[simp] theorem trackLinkDown_fwdInUp : (trackLinkDown s).fwdInUp = s.fwdInUp := by unfold trackLinkDown; simp only []; split <;> simp
@[simp] theorem trackLinkDown_fwdOutUp : (trackLinkDown s).fwdOutUp = s.fwdOutUp := by unfold trackLinkDown; simp only []; split <;> simp
@[simp] theorem trackLinkDown_drains : (trackLinkDown s).drains = s.drains := by unfold trackLinkDown; simp only []; split <;> simp
@[simp] theorem trackLinkDown_upstreamRoom : (trackLinkDown s).upstreamRoom = s.upstreamRoom := by unfold trackLinkDown; simp only []; split <;> simp
@[simp] theorem trackLinkDown_filter : (trackLinkDown s).filter = s.filter := by unfold trackLinkDown; simp only []; split <;> simp
@[simp] theorem trackLinkDown_session : (trackLinkDown s).session = s.session := by unfold trackLinkDown; simp only []; split <;> simp
@[simp] theorem trackLinkDown_objects : (trackLinkDown s).objects = s.objects := by unfold trackLinkDown; simp only []; split <;> simp
@[simp] theorem trackLinkDown_generations : (trackLinkDown s).generations = s.generations := by unfold trackLinkDown; simp only []; split <;> simp
@[simp] theorem trackLinkDown_images : (trackLinkDown s).images = s.images := by unfold trackLinkDown; simp only []; split <;> simp
@[simp] theorem trackLinkDown_palettes : (trackLinkDown s).palettes = s.palettes := by unfold trackLinkDown; simp only []; split <;> simp
@[simp] theorem trackLinkDown_compositor : (trackLinkDown s).compositor = s.compositor := by unfold trackLinkDown; simp only []; split <;> simp
@[simp] theorem trackLinkDown_fwdSent : (trackLinkDown s).fwdSent = s.fwdSent := by unfold trackLinkDown; simp only []; split <;> simp
@[simp] theorem trackLinkDown_retSent : (trackLinkDown s).retSent = s.retSent := by unfold trackLinkDown; simp only []; split <;> simp
@[simp] theorem trackLinkDown_pending : (trackLinkDown s).pending = s.pending := by unfold trackLinkDown; simp only []; split <;> simp

/-! `applyIfDue` -/
@[simp] theorem applyIfDue_resetAsserted : (applyIfDue s).resetAsserted = s.resetAsserted := by unfold applyIfDue; split <;> simp
@[simp] theorem applyIfDue_unitAddress : (applyIfDue s).unitAddress = s.unitAddress := by unfold applyIfDue; split <;> simp
@[simp] theorem applyIfDue_fwdInUp : (applyIfDue s).fwdInUp = s.fwdInUp := by unfold applyIfDue; split <;> simp
@[simp] theorem applyIfDue_fwdOutUp : (applyIfDue s).fwdOutUp = s.fwdOutUp := by unfold applyIfDue; split <;> simp
@[simp] theorem applyIfDue_drains : (applyIfDue s).drains = s.drains := by unfold applyIfDue; split <;> simp
@[simp] theorem applyIfDue_upstreamRoom : (applyIfDue s).upstreamRoom = s.upstreamRoom := by unfold applyIfDue; split <;> simp
@[simp] theorem applyIfDue_tracker : (applyIfDue s).tracker = s.tracker := by unfold applyIfDue; split <;> simp
@[simp] theorem applyIfDue_filter : (applyIfDue s).filter = s.filter := by unfold applyIfDue; split <;> simp
@[simp] theorem applyIfDue_session : (applyIfDue s).session = s.session := by unfold applyIfDue; split <;> simp
@[simp] theorem applyIfDue_compositor : (applyIfDue s).compositor = s.compositor := by unfold applyIfDue; split <;> simp
@[simp] theorem applyIfDue_fwdSent : (applyIfDue s).fwdSent = s.fwdSent := by unfold applyIfDue; split <;> simp
@[simp] theorem applyIfDue_retSent : (applyIfDue s).retSent = s.retSent := by unfold applyIfDue; split <;> simp
@[simp] theorem applyIfDue_pending : (applyIfDue s).pending = s.pending := by unfold applyIfDue; split <;> simp

/-! `beginDrain` -/
@[simp] theorem beginDrain_resetAsserted : (beginDrain s).resetAsserted = s.resetAsserted := by unfold beginDrain; simp only []; repeat (first | rfl | (simp; done) | split)
@[simp] theorem beginDrain_unitAddress : (beginDrain s).unitAddress = s.unitAddress := by unfold beginDrain; simp only []; repeat (first | rfl | (simp; done) | split)
@[simp] theorem beginDrain_fwdInUp : (beginDrain s).fwdInUp = s.fwdInUp := by unfold beginDrain; simp only []; repeat (first | rfl | (simp; done) | split)
@[simp] theorem beginDrain_upstreamRoom : (beginDrain s).upstreamRoom = s.upstreamRoom := by unfold beginDrain; simp only []; repeat (first | rfl | (simp; done) | split)
@[simp] theorem beginDrain_tracker : (beginDrain s).tracker = s.tracker := by unfold beginDrain; simp only []; repeat (first | rfl | (simp; done) | split)
@[simp] theorem beginDrain_filter : (beginDrain s).filter = s.filter := by unfold beginDrain; simp only []; repeat (first | rfl | (simp; done) | split)
@[simp] theorem beginDrain_session : (beginDrain s).session = s.session := by unfold beginDrain; simp only []; repeat (first | rfl | (simp; done) | split)
@[simp] theorem beginDrain_objects : (beginDrain s).objects = s.objects := by unfold beginDrain; simp only []; repeat (first | rfl | (simp; done) | split)
@[simp] theorem beginDrain_generations : (beginDrain s).generations = s.generations := by unfold beginDrain; simp only []; repeat (first | rfl | (simp; done) | split)
@[simp] theorem beginDrain_images : (beginDrain s).images = s.images := by unfold beginDrain; simp only []; repeat (first | rfl | (simp; done) | split)
@[simp] theorem beginDrain_palettes : (beginDrain s).palettes = s.palettes := by unfold beginDrain; simp only []; repeat (first | rfl | (simp; done) | split)
@[simp] theorem beginDrain_compositor : (beginDrain s).compositor = s.compositor := by unfold beginDrain; simp only []; repeat (first | rfl | (simp; done) | split)
@[simp] theorem beginDrain_reports : (beginDrain s).reports = s.reports := by unfold beginDrain; simp only []; repeat (first | rfl | (simp; done) | split)
@[simp] theorem beginDrain_retSent : (beginDrain s).retSent = s.retSent := by unfold beginDrain; simp only []; repeat (first | rfl | (simp; done) | split)
@[simp] theorem beginDrain_pending : (beginDrain s).pending = s.pending := by unfold beginDrain; simp only []; repeat (first | rfl | (simp; done) | split)

/-! `endTransmission` -/
@[simp] theorem endTransmission_resetAsserted : (endTransmission s).resetAsserted = s.resetAsserted := by unfold endTransmission; repeat (first | rfl | split)
@[simp] theorem endTransmission_unitAddress : (endTransmission s).unitAddress = s.unitAddress := by unfold endTransmission; repeat (first | rfl | split)
@[simp] theorem endTransmission_fwdInUp : (endTransmission s).fwdInUp = s.fwdInUp := by unfold endTransmission; repeat (first | rfl | split)
@[simp] theorem endTransmission_fwdOutUp : (endTransmission s).fwdOutUp = s.fwdOutUp := by unfold endTransmission; repeat (first | rfl | split)
@[simp] theorem endTransmission_drains : (endTransmission s).drains = s.drains := by unfold endTransmission; repeat (first | rfl | split)
@[simp] theorem endTransmission_upstreamRoom : (endTransmission s).upstreamRoom = s.upstreamRoom := by unfold endTransmission; repeat (first | rfl | split)
@[simp] theorem endTransmission_tracker : (endTransmission s).tracker = s.tracker := by unfold endTransmission; repeat (first | rfl | split)
@[simp] theorem endTransmission_filter : (endTransmission s).filter = s.filter := by unfold endTransmission; repeat (first | rfl | split)
@[simp] theorem endTransmission_session : (endTransmission s).session = s.session := by unfold endTransmission; repeat (first | rfl | split)
@[simp] theorem endTransmission_objects : (endTransmission s).objects = s.objects := by unfold endTransmission; repeat (first | rfl | split)
@[simp] theorem endTransmission_generations : (endTransmission s).generations = s.generations := by unfold endTransmission; repeat (first | rfl | split)
@[simp] theorem endTransmission_images : (endTransmission s).images = s.images := by unfold endTransmission; repeat (first | rfl | split)
@[simp] theorem endTransmission_palettes : (endTransmission s).palettes = s.palettes := by unfold endTransmission; repeat (first | rfl | split)
@[simp] theorem endTransmission_compositor : (endTransmission s).compositor = s.compositor := by unfold endTransmission; repeat (first | rfl | split)
@[simp] theorem endTransmission_fwdSent : (endTransmission s).fwdSent = s.fwdSent := by unfold endTransmission; repeat (first | rfl | split)
@[simp] theorem endTransmission_pending : (endTransmission s).pending = s.pending := by unfold endTransmission; repeat (first | rfl | split)

/-! `onRelay` -/
@[simp] theorem onRelay_resetAsserted (f : List RelayPlace → List RelayPlace) : (onRelay f s).resetAsserted = s.resetAsserted := by unfold onRelay; split <;> rfl
@[simp] theorem onRelay_unitAddress (f : List RelayPlace → List RelayPlace) : (onRelay f s).unitAddress = s.unitAddress := by unfold onRelay; split <;> rfl
@[simp] theorem onRelay_fwdInUp (f : List RelayPlace → List RelayPlace) : (onRelay f s).fwdInUp = s.fwdInUp := by unfold onRelay; split <;> rfl
@[simp] theorem onRelay_fwdOutUp (f : List RelayPlace → List RelayPlace) : (onRelay f s).fwdOutUp = s.fwdOutUp := by unfold onRelay; split <;> rfl
@[simp] theorem onRelay_drains (f : List RelayPlace → List RelayPlace) : (onRelay f s).drains = s.drains := by unfold onRelay; split <;> rfl
@[simp] theorem onRelay_upstreamRoom (f : List RelayPlace → List RelayPlace) : (onRelay f s).upstreamRoom = s.upstreamRoom := by unfold onRelay; split <;> rfl
@[simp] theorem onRelay_tracker (f : List RelayPlace → List RelayPlace) : (onRelay f s).tracker = s.tracker := by unfold onRelay; split <;> rfl
@[simp] theorem onRelay_filter (f : List RelayPlace → List RelayPlace) : (onRelay f s).filter = s.filter := by unfold onRelay; split <;> rfl
@[simp] theorem onRelay_session (f : List RelayPlace → List RelayPlace) : (onRelay f s).session = s.session := by unfold onRelay; split <;> rfl
@[simp] theorem onRelay_objects (f : List RelayPlace → List RelayPlace) : (onRelay f s).objects = s.objects := by unfold onRelay; split <;> rfl
@[simp] theorem onRelay_generations (f : List RelayPlace → List RelayPlace) : (onRelay f s).generations = s.generations := by unfold onRelay; split <;> rfl
@[simp] theorem onRelay_images (f : List RelayPlace → List RelayPlace) : (onRelay f s).images = s.images := by unfold onRelay; split <;> rfl
@[simp] theorem onRelay_palettes (f : List RelayPlace → List RelayPlace) : (onRelay f s).palettes = s.palettes := by unfold onRelay; split <;> rfl
@[simp] theorem onRelay_compositor (f : List RelayPlace → List RelayPlace) : (onRelay f s).compositor = s.compositor := by unfold onRelay; split <;> rfl
@[simp] theorem onRelay_fwdSent (f : List RelayPlace → List RelayPlace) : (onRelay f s).fwdSent = s.fwdSent := by unfold onRelay; split <;> rfl
@[simp] theorem onRelay_retSent (f : List RelayPlace → List RelayPlace) : (onRelay f s).retSent = s.retSent := by unfold onRelay; split <;> rfl
@[simp] theorem onRelay_pending (f : List RelayPlace → List RelayPlace) : (onRelay f s).pending = s.pending := by unfold onRelay; split <;> rfl

/-! `endRelayPacket` -/
@[simp] theorem endRelayPacket_resetAsserted : (endRelayPacket s).resetAsserted = s.resetAsserted := by unfold endRelayPacket; simp only []; split <;> simp
@[simp] theorem endRelayPacket_unitAddress : (endRelayPacket s).unitAddress = s.unitAddress := by unfold endRelayPacket; simp only []; split <;> simp
@[simp] theorem endRelayPacket_fwdInUp : (endRelayPacket s).fwdInUp = s.fwdInUp := by unfold endRelayPacket; simp only []; split <;> simp
@[simp] theorem endRelayPacket_fwdOutUp : (endRelayPacket s).fwdOutUp = s.fwdOutUp := by unfold endRelayPacket; simp only []; split <;> simp
@[simp] theorem endRelayPacket_drains : (endRelayPacket s).drains = s.drains := by unfold endRelayPacket; simp only []; split <;> simp
@[simp] theorem endRelayPacket_upstreamRoom : (endRelayPacket s).upstreamRoom = s.upstreamRoom := by unfold endRelayPacket; simp only []; split <;> simp
@[simp] theorem endRelayPacket_tracker : (endRelayPacket s).tracker = s.tracker := by unfold endRelayPacket; simp only []; split <;> simp
@[simp] theorem endRelayPacket_filter : (endRelayPacket s).filter = s.filter := by unfold endRelayPacket; simp only []; split <;> simp
@[simp] theorem endRelayPacket_session : (endRelayPacket s).session = s.session := by unfold endRelayPacket; simp only []; split <;> simp
@[simp] theorem endRelayPacket_objects : (endRelayPacket s).objects = s.objects := by unfold endRelayPacket; simp only []; split <;> simp
@[simp] theorem endRelayPacket_generations : (endRelayPacket s).generations = s.generations := by unfold endRelayPacket; simp only []; split <;> simp
@[simp] theorem endRelayPacket_images : (endRelayPacket s).images = s.images := by unfold endRelayPacket; simp only []; split <;> simp
@[simp] theorem endRelayPacket_palettes : (endRelayPacket s).palettes = s.palettes := by unfold endRelayPacket; simp only []; split <;> simp
@[simp] theorem endRelayPacket_compositor : (endRelayPacket s).compositor = s.compositor := by unfold endRelayPacket; simp only []; split <;> simp
@[simp] theorem endRelayPacket_fwdSent : (endRelayPacket s).fwdSent = s.fwdSent := by unfold endRelayPacket; simp only []; split <;> simp
@[simp] theorem endRelayPacket_retSent : (endRelayPacket s).retSent = s.retSent := by unfold endRelayPacket; simp only []; split <;> simp
@[simp] theorem endRelayPacket_pending : (endRelayPacket s).pending = s.pending := by unfold endRelayPacket; simp only []; split <;> simp

end Sys2Proof.Machine
end

