-- ==== Sys2Proof/Laws/Session.lean ====
section
/-! SUPPORT. How a host command reaches its block and comes back: what `exec` is for every host command, what becomes of a
unicast command that is accepted, repeated or refused, and of a broadcast (R134 to R143). -/

set_option Elab.async false

namespace Sys2Proof.Machine

/-- Every host command is the session's taking of what its packet carries (R134, R141). -/
theorem exec_host {i : Instr} {how : Addressing} {seq code : Byte} {p : List Byte}
    (h : carried i = some (how, seq, code, p)) (s : State) : exec i s = .next (takeCommand how seq code p s) := by
  cases i <;> simp only [carried, Option.some.injEq, Prod.mk.injEq, reduceCtorEq] at h <;>
    (obtain ⟨rfl, rfl, rfl, rfl⟩ := h; rfl)

/-- The command a code and a payload spell is taken with them. -/
theorem exec_commandOf (how : Addressing) (seq code : Byte) (p : List Byte) (s : State) :
    exec (commandOf how seq code p) s = .next (takeCommand how seq code p s) := by
  have h : carried (commandOf how seq code p) = some (how, seq, code, p) := by
    unfold commandOf
    iterate 8 refine iteInduction (motive := fun i => carried i = _) (fun h => by subst h; rfl) fun _ => ?_
    refine iteInduction (motive := fun i => carried i = _) (fun h => ?_) fun _ => ?_
    · subst h
      cases p with
      | nil => rfl
      | cons m r =>
        iterate 3 refine iteInduction (motive := fun i => carried i = _) (fun h => by subst h; rfl) fun _ => ?_
        rfl
    iterate 11 refine iteInduction (motive := fun i => carried i = _) (fun h => by subst h; rfl) fun _ => ?_
    rfl
  exact exec_host h s

/-! ### The reserved slot -/

/-- With no other slot reserved, the slot at the tail is the one filled (R150). -/
theorem fillReserved_tail (b : List Byte) (q r : List ReportSlot) (h : ∀ x ∈ q, x ≠ .reserved) :
    fillReserved b (q ++ .reserved :: r) = q ++ .filled b :: r := by
  induction q with
  | nil => rfl
  | cons x q ih =>
    cases x with
    | reserved => exact absurd rfl (h _ (by simp))
    | filled c => simp [fillReserved, ih (fun y hy => h y (by simp [hy]))]

/-- With the reserved slot alone of its kind, filling it appends the report to the queue as it stood, in front of what was
appended behind it. -/
theorem fillSlot_eq {a : Ack} {r : Bool} {s : State} {q tail : List ReportSlot} (hq : ∀ x ∈ q, x ≠ .reserved)
    (h : s.reports.queue = q ++ .reserved :: tail) :
    fillSlot a r s = reportFilled { s.reports with queue := q } { s with
      reports := { s.reports with queue := q ++ s.answer a r :: tail }
      session := { s.session with discardTally := 0, firstDiscarded := none } } := by
  have hb : s.reports.reportHead = ({ s.reports with queue := q } : ReportUnit).reportHead := by
    simp only [ReportUnit.reportHead, h]
    cases q with
    | nil => rfl
    | cons x l => cases x <;> rfl
  simp only [fillSlot, h, fillReserved_tail _ _ _ hq]
  rw [reportFilled_before hb]
  rfl

/-! ### Taking a unicast command -/

/-- A unicast command that reaches the session with a report slot free goes on to the sequence stage (R135, R136). -/
theorem take_unicast {s : State} (ht : s.takesCommands = true) (hq : s.reports.queue.length < 8) (seq code : Byte)
    (p : List Byte) : takeCommand .unicast seq code p s = sequenceStage seq code p (reserveSlot s) := by
  have : ¬ s.reports.freeSlots = 0 := by simp only [ReportUnit.freeSlots, Config.reportSlots]; omega
  simp [takeCommand, ht, handOver, takeUnicast, this]

/-- One that meets a full report queue is discarded and counted (R136, R137). -/
theorem take_full {s : State} (ht : s.takesCommands = true) (hq : 8 ≤ s.reports.queue.length) (seq code : Byte)
    (p : List Byte) : takeCommand .unicast seq code p s = countDiscard seq s := by
  have : s.reports.freeSlots = 0 := by simp only [ReportUnit.freeSlots, Config.reportSlots]; omega
  simp [takeCommand, ht, handOver, takeUnicast, this]

/-- The number expected next is accepted (R139). -/
theorem expects_take {s : State} {seq : Byte} (h : s.Expects seq) (code : Byte) (p : List Byte) :
    takeCommand .unicast seq code p s = acceptCommand seq code p (reserveSlot s) := by
  obtain ⟨h1, h2, -, h4, h5, h6⟩ := h
  rw [take_unicast h1 h2]
  simp [sequenceStage, reserveSlot, h4, repeatOf, h5, h6]

/-- The state an accepted command finds: its number consumed and a slot reserved. -/
def State.opened (s : State) (seq : Byte) : State := consume seq (reserveSlot s)

/-- An accepted command whose block leaves the session, the address and the report unit alone: its effect on the tables, and
its acknowledgement cached and queued (R142). -/
theorem accept_quiet {s : State} {seq code : Byte} {p : List Byte} {r : Answer}
    (hq : ∀ x ∈ s.reports.queue, x ≠ .reserved) (hr : dispatch code p (s.opened seq) = r)
    (hs : r.state.session = (s.opened seq).session) (hu : r.state.unitAddress = s.unitAddress)
    (hp : r.state.reports = (s.opened seq).reports) :
    acceptCommand seq code p (reserveSlot s) =
      reportFilled s.reports { r.state with
        session := s.session.accepted ⟨seq, code, r.status, r.data⟩
        reports := { s.reports with queue := s.reports.queue ++ [s.answer ⟨seq, code, r.status, r.data⟩ false] } } := by
  unfold State.opened at *
  simp only [acceptCommand, hr]
  have hf : ({ r.state with session := { r.state.session with cached := some ⟨seq, code, r.status, r.data⟩ } } :
      State).reports.queue = s.reports.queue ++ .reserved :: [] := by
    simp only [hp]; rfl
  rw [fillSlot_eq hq hf]
  simp only [hs, hp, State.answer, hu]
  rfl

/-- An accepted command that its block answers without a change. -/
theorem exec_answered {s : State} {i : Instr} {seq code : Byte} {p : List Byte} {st : Status} {d : List Byte}
    (hc : carried i = some (.unicast, seq, code, p)) (he : s.Expects seq)
    (hr : dispatch code p (s.opened seq) = ⟨s.opened seq, st, d⟩) :
    exec i s = .next (s.accepted ⟨seq, code, st, d⟩) := by
  rw [exec_host hc, expects_take he, accept_quiet he.2.2.1 hr rfl rfl rfl]
  rfl

/-- An accepted command that changes tables alone. -/
theorem exec_accepted {s : State} {i : Instr} {seq code : Byte} {p : List Byte} {st : Status} {d : List Byte} {u : State}
    (hc : carried i = some (.unicast, seq, code, p)) (he : s.Expects seq)
    (hr : dispatch code p (s.opened seq) = ⟨u, st, d⟩) (hs : u.session = (s.opened seq).session)
    (hu : u.unitAddress = s.unitAddress) (hp : u.reports = (s.opened seq).reports) :
    exec i s = .next (reportFilled s.reports { u with
      session := s.session.accepted ⟨seq, code, st, d⟩
      reports := { s.reports with queue := s.reports.queue ++ [s.answer ⟨seq, code, st, d⟩ false] } }) := by
  rw [exec_host hc, expects_take he, accept_quiet he.2.2.1 hr hs hu hp]

/-! ### Dispatch by code -/

/-- A code the table does not list (R141). -/
theorem dispatch_unknown {code : Byte} (h : code ∉ listedCodes) (p : List Byte) (s : State) :
    dispatch code p s = ⟨s, .unknown, []⟩ := by
  simp [dispatch, h, refuse]

/-- A payload whose length does not fit (R141, R164). -/
theorem dispatch_length {code : Byte} (h : code ∈ listedCodes) {p : List Byte} (hl : lengthFits code p = false) (s : State) :
    dispatch code p s = ⟨s, .length, []⟩ := by
  simp [dispatch, h, hl, refuse]

section
variable {p : List Byte} (s : State)

theorem dispatch_hello (h : lengthFits codeHello p = true) :
    dispatch codeHello p s = commandHello s := by
  unfold dispatch; rw [h]; rfl
theorem dispatch_status (h : lengthFits codeStatus p = true) :
    dispatch codeStatus p s = commandStatus s := by
  unfold dispatch; rw [h]; rfl
theorem dispatch_setEvents (h : lengthFits codeSetEvents p = true) :
    dispatch codeSetEvents p s = commandSetEvents p s := by
  unfold dispatch; rw [h]; rfl
theorem dispatch_defineObject (h : lengthFits codeDefineObject p = true) :
    dispatch codeDefineObject p s = commandDefineObject p s := by
  unfold dispatch; rw [h]; rfl
theorem dispatch_moveObject (h : lengthFits codeMoveObject p = true) :
    dispatch codeMoveObject p s = commandMoveObject p s := by
  unfold dispatch; rw [h]; rfl
theorem dispatch_setObjectAttr (h : lengthFits codeSetObjectAttr p = true) :
    dispatch codeSetObjectAttr p s = commandSetObjectAttr p s := by
  unfold dispatch; rw [h]; rfl
theorem dispatch_deleteObject (h : lengthFits codeDeleteObject p = true) :
    dispatch codeDeleteObject p s = commandDeleteObject p s := by
  unfold dispatch; rw [h]; rfl
theorem dispatch_readObject (h : lengthFits codeReadObject p = true) :
    dispatch codeReadObject p s = commandReadObject p s := by
  unfold dispatch; rw [h]; rfl
theorem dispatch_commit (h : lengthFits codeCommit p = true) :
    dispatch codeCommit p s = commandCommit p s := by
  unfold dispatch; rw [h]; rfl
theorem dispatch_cancelCommit (h : lengthFits codeCancelCommit p = true) :
    dispatch codeCancelCommit p s = commandCancelCommit s := by
  unfold dispatch; rw [h]; rfl
theorem dispatch_setMode (h : lengthFits codeSetMode p = true) :
    dispatch codeSetMode p s = commandSetMode p s := by
  unfold dispatch; rw [h]; rfl
theorem dispatch_discard (h : lengthFits codeDiscard p = true) :
    dispatch codeDiscard p s = commandDiscard s := by
  unfold dispatch; rw [h]; rfl
theorem dispatch_clearAll (h : lengthFits codeClearAll p = true) :
    dispatch codeClearAll p s = commandClearAll s := by
  unfold dispatch; rw [h]; rfl
theorem dispatch_createImage (h : lengthFits codeCreateImage p = true) :
    dispatch codeCreateImage p s = commandCreateImage p s := by
  unfold dispatch; rw [h]; rfl
theorem dispatch_loadImage (h : lengthFits codeLoadImage p = true) :
    dispatch codeLoadImage p s = commandLoadImage p s := by
  unfold dispatch; rw [h]; rfl
theorem dispatch_restartImage (h : lengthFits codeRestartImage p = true) :
    dispatch codeRestartImage p s = commandRestartImage p s := by
  unfold dispatch; rw [h]; rfl
theorem dispatch_releaseImage (h : lengthFits codeReleaseImage p = true) :
    dispatch codeReleaseImage p s = commandReleaseImage p s := by
  unfold dispatch; rw [h]; rfl
theorem dispatch_imageInfo (h : lengthFits codeImageInfo p = true) :
    dispatch codeImageInfo p s = commandImageInfo p s := by
  unfold dispatch; rw [h]; rfl
theorem dispatch_writePalette (h : lengthFits codeWritePalette p = true) :
    dispatch codeWritePalette p s = commandWritePalette p s := by
  unfold dispatch; rw [h]; rfl
theorem dispatch_readPalette (h : lengthFits codeReadPalette p = true) :
    dispatch codeReadPalette p s = commandReadPalette p s := by
  unfold dispatch; rw [h]; rfl

end

/-- Dispatch is the refusal UNKNOWN, the refusal LENGTH, or the answer of one of the twenty commands: what holds of each holds
of dispatch. -/
theorem dispatch_cases (motive : Answer → Prop) (code : Byte) (p : List Byte) (s : State)
    (unknown : motive (refuse s .unknown [])) (length : motive (refuse s .length []))
    (hello : motive (commandHello s)) (status : motive (commandStatus s)) (setEvents : motive (commandSetEvents p s))
    (defineObject : motive (commandDefineObject p s)) (moveObject : motive (commandMoveObject p s))
    (setObjectAttr : motive (commandSetObjectAttr p s)) (deleteObject : motive (commandDeleteObject p s))
    (readObject : motive (commandReadObject p s)) (commit : motive (commandCommit p s))
    (cancelCommit : motive (commandCancelCommit s)) (setMode : motive (commandSetMode p s))
    (discard : motive (commandDiscard s)) (clearAll : motive (commandClearAll s))
    (createImage : motive (commandCreateImage p s)) (loadImage : motive (commandLoadImage p s))
    (restartImage : motive (commandRestartImage p s)) (releaseImage : motive (commandReleaseImage p s))
    (imageInfo : motive (commandImageInfo p s)) (writePalette : motive (commandWritePalette p s))
    (readPalette : motive (commandReadPalette p s)) : motive (dispatch code p s) := by
  unfold dispatch
  refine iteInduction (fun _ => unknown) fun _ => iteInduction (fun _ => length) fun _ =>
    iteInduction (fun _ => hello) fun _ =>
    iteInduction (fun _ => status) fun _ =>
    iteInduction (fun _ => setEvents) fun _ =>
    iteInduction (fun _ => defineObject) fun _ =>
    iteInduction (fun _ => moveObject) fun _ =>
    iteInduction (fun _ => setObjectAttr) fun _ =>
    iteInduction (fun _ => deleteObject) fun _ =>
    iteInduction (fun _ => readObject) fun _ =>
    iteInduction (fun _ => commit) fun _ =>
    iteInduction (fun _ => cancelCommit) fun _ =>
    iteInduction (fun _ => setMode) fun _ =>
    iteInduction (fun _ => discard) fun _ =>
    iteInduction (fun _ => clearAll) fun _ =>
    iteInduction (fun _ => createImage) fun _ =>
    iteInduction (fun _ => loadImage) fun _ =>
    iteInduction (fun _ => restartImage) fun _ =>
    iteInduction (fun _ => releaseImage) fun _ =>
    iteInduction (fun _ => imageInfo) fun _ =>
    iteInduction (fun _ => writePalette) fun _ =>
    readPalette

end Sys2Proof.Machine
end

