-- ==== Sys2Proof/Laws/Tables.lean ====
section
/-! SUPPORT. What each operation on a table leaves at each place: the object table, the image directory, the active palettes and
the pending palette write list. -/

set_option Elab.async false

namespace Sys2Proof.Machine

/-! ### Vectors read with a default -/

theorem getD_eq {α : Type} {n : Nat} (v : Vector α n) (i : Nat) (d : α) : v.getD i d = v[i]?.getD d := by
  rcases v with ⟨a, ha⟩
  simp [Vector.getD]

theorem getD_setIfInBounds {α : Type} {n : Nat} (v : Vector α n) (i j : Nat) (x d : α) :
    (v.setIfInBounds i x).getD j d = if j = i ∧ i < n then x else v.getD j d := by
  simp only [getD_eq, Vector.getElem?_setIfInBounds]
  by_cases h : i = j
  · subst h
    by_cases hi : i < n <;> simp [hi]
  · simp [h, Ne.symm h]

theorem getD_map {α β : Type} {n : Nat} (v : Vector α n) (f : α → β) (j : Nat) (d : α) :
    (v.map f).getD j (f d) = f (v.getD j d) := by
  simp only [getD_eq, Vector.getElem?_map]
  cases v[j]? <;> rfl

theorem getD_replicate {α : Type} (n j : Nat) (x : α) : (Vector.replicate n x).getD j x = x := by
  simp [getD_eq, Vector.getElem?_replicate]
  split <;> rfl

theorem getD_ge {α : Type} {n : Nat} (v : Vector α n) {j : Nat} (h : n ≤ j) (d : α) : v.getD j d = d := by
  simp [getD_eq, h]

/-! ### Object table -/

theorem stagedAt_ge (t : ObjectTable) {i : Nat} (h : 64 ≤ i) : t.stagedAt i = none := getD_ge _ h _
theorem activeAt_ge (t : ObjectTable) {i : Nat} (h : 64 ≤ i) : t.activeAt i = none := getD_ge _ h _

theorem stagedAt_lt {t : ObjectTable} {i : Nat} {o : ObjectFields} (h : t.stagedAt i = some o) : i < 64 := by
  by_contra hi
  simp [stagedAt_ge t (Nat.le_of_not_lt hi)] at h

theorem activeAt_lt {t : ObjectTable} {i : Nat} {o : ActiveObject} (h : t.activeAt i = some o) : i < 64 := by
  by_contra hi
  simp [activeAt_ge t (Nat.le_of_not_lt hi)] at h

theorem stagedAt_setStaged (t : ObjectTable) (i j : Nat) (o : Option ObjectFields) (hi : i < 64) :
    (t.setStaged i o).stagedAt j = if j = i then o else t.stagedAt j := by
  simp [ObjectTable.setStaged, ObjectTable.stagedAt, getD_setIfInBounds, hi]

@[simp] theorem setStaged_active (t : ObjectTable) (i : Nat) (o : Option ObjectFields) :
    (t.setStaged i o).active = t.active := rfl

@[simp] theorem activeAt_setStaged (t : ObjectTable) (i j : Nat) (o : Option ObjectFields) :
    (t.setStaged i o).activeAt j = t.activeAt j := rfl

@[simp] theorem stagedAt_reset (i : Nat) : ObjectTable.reset.stagedAt i = none := getD_replicate 64 i none
@[simp] theorem activeAt_reset (i : Nat) : ObjectTable.reset.activeAt i = none := getD_replicate 64 i none

@[simp] theorem stagedAt_applyStaged (t : ObjectTable) (i : Nat) : t.applyStaged.stagedAt i = t.stagedAt i := rfl

@[simp] theorem activeAt_applyStaged (t : ObjectTable) (i : Nat) :
    t.applyStaged.activeAt i = (t.stagedAt i).map (resolve t.stagedAt) :=
  getD_map t.staged (Option.map (resolve t.stagedAt)) i none

@[simp] theorem stagedAt_discardStaged (t : ObjectTable) (i : Nat) :
    t.discardStaged.stagedAt i = (t.activeAt i).map ActiveObject.fields :=
  getD_map t.active (Option.map ActiveObject.fields) i none

@[simp] theorem activeAt_discardStaged (t : ObjectTable) (i : Nat) : t.discardStaged.activeAt i = t.activeAt i := rfl

@[simp] theorem stagedAt_clearStaged (t : ObjectTable) (i : Nat) : t.clearStaged.stagedAt i = none :=
  getD_replicate 64 i none

@[simp] theorem activeAt_clearStaged (t : ObjectTable) (i : Nat) : t.clearStaged.activeAt i = t.activeAt i := rfl

@[simp] theorem resolve_fields (look : Nat → Option ObjectFields) (o : ObjectFields) : (resolve look o).fields = o := rfl

/-- The active record of an id after an apply carries the staged record's fields. -/
theorem activeFields_applyStaged (t : ObjectTable) (i : Nat) :
    (t.applyStaged.activeAt i).map ActiveObject.fields = t.stagedAt i := by
  rw [activeAt_applyStaged]
  cases t.stagedAt i <;> rfl

/-! ### Image directory -/

theorem entry_ge (st : ImageStore) {h : Nat} (hh : 128 ≤ h) : st.entry h = ImageEntry.free := getD_ge _ hh _

theorem imageAt_lt {st : ImageStore} {h : Nat} {im : Image} (e : st.imageAt h = some im) : h < 128 := by
  by_contra hi
  simp [ImageStore.imageAt, entry_ge st (Nat.le_of_not_lt hi), ImageEntry.free] at e

theorem entry_setEntry (st : ImageStore) (h k : Nat) (e : ImageEntry) (hh : h < 128) :
    (st.setEntry h e).entry k = if k = h then e else st.entry k := by
  simp [ImageStore.setEntry, ImageStore.entry, getD_setIfInBounds, hh]

@[simp] theorem setEntry_memory (st : ImageStore) (h : Nat) (e : ImageEntry) : (st.setEntry h e).memory = st.memory := rfl
@[simp] theorem setEntry_freePages (st : ImageStore) (h : Nat) (e : ImageEntry) :
    (st.setEntry h e).freePages = st.freePages := rfl

theorem entry_freeImage (st : ImageStore) (h k : Nat) (hh : h < 128) :
    (st.freeImage h).entry k = if k = h then ImageEntry.free else st.entry k := by
  simp [ImageStore.freeImage, ImageStore.entry, getD_setIfInBounds, hh]

@[simp] theorem freeImage_memory (st : ImageStore) (h : Nat) : (st.freeImage h).memory = st.memory := rfl
theorem freeImage_freePages (st : ImageStore) (h : Nat) :
    (st.freeImage h).freePages = st.freePages ++ (st.entry h).pages := rfl

@[simp] theorem entry_reset (h : Nat) : ImageStore.reset.entry h = ImageEntry.free := getD_replicate 128 h ImageEntry.free

theorem afterApply_free : ImageEntry.free.afterApply = ImageEntry.free := rfl
theorem afterDiscard_free : ImageEntry.free.afterDiscard = ImageEntry.free := rfl
theorem afterClear_free : ImageEntry.free.afterClear = ImageEntry.free := rfl

theorem entry_applyCounts (st : ImageStore) (h : Nat) : st.applyCounts.entry h = (st.entry h).afterApply :=
  getD_map st.directory ImageEntry.afterApply h ImageEntry.free

theorem entry_discardCounts (st : ImageStore) (h : Nat) : st.discardCounts.entry h = (st.entry h).afterDiscard :=
  getD_map st.directory ImageEntry.afterDiscard h ImageEntry.free

theorem entry_clearCounts (st : ImageStore) (h : Nat) : st.clearCounts.entry h = (st.entry h).afterClear :=
  getD_map st.directory ImageEntry.afterClear h ImageEntry.free

@[simp] theorem applyCounts_memory (st : ImageStore) : st.applyCounts.memory = st.memory := rfl
@[simp] theorem discardCounts_memory (st : ImageStore) : st.discardCounts.memory = st.memory := rfl
@[simp] theorem clearCounts_memory (st : ImageStore) : st.clearCounts.memory = st.memory := rfl
@[simp] theorem discardCounts_freePages (st : ImageStore) : st.discardCounts.freePages = st.freePages := rfl

/-- The directory as the list of its entries by handle. -/
theorem directory_toList (st : ImageStore) : st.directory.toList = (List.range 128).map st.entry := by
  apply List.ext_getElem
  · simp
  · intro i h1 h2
    simp at h1
    simp [ImageStore.entry, getD_eq, h1]

/-- Pages that join the free list from the entries a test picks, by ascending handle. -/
theorem filtered_pages (st : ImageStore) (f : ImageEntry → Bool) :
    (st.directory.toList.filter f).flatMap ImageEntry.pages =
      (List.range 128).flatMap fun h => if f (st.entry h) then (st.entry h).pages else [] := by
  rw [directory_toList]
  induction List.range 128 with
  | nil => rfl
  | cons a l ih => by_cases h : f (st.entry a) <;> simp [h, ih]

theorem countP_directory (st : ImageStore) (f : ImageEntry → Bool) : st.directory.toList.countP f = st.handlesWith f := by
  rw [directory_toList, List.countP_map, List.countP_eq_length_filter]
  rfl

/-- A staged count after one reference is dropped. -/
theorem entry_dropRef (st : ImageStore) (h k : Nat) (hh : h < 128) :
    (st.dropRef h).entry k =
      if k = h then { st.entry h with stagedRefs := (st.entry h).stagedRefs - 1 } else st.entry k :=
  entry_setEntry _ _ _ _ hh

/-- A staged count after one reference is added. -/
theorem entry_addRef (st : ImageStore) (h k : Nat) (hh : h < 128) :
    (st.addRef h).entry k =
      if k = h then { st.entry h with stagedRefs := (st.entry h).stagedRefs + 1 } else st.entry k :=
  entry_setEntry _ _ _ _ hh

theorem addRef_ge (st : ImageStore) (h : Nat) (hh : 128 ≤ h) : st.addRef h = st := by
  simp only [ImageStore.addRef, ImageStore.setEntry]
  rw [Vector.setIfInBounds_eq_of_size_le (by simpa using hh)]

theorem dropRef_ge (st : ImageStore) (h : Nat) (hh : 128 ≤ h) : st.dropRef h = st := by
  simp only [ImageStore.dropRef, ImageStore.setEntry]
  rw [Vector.setIfInBounds_eq_of_size_le (by simpa using hh)]

theorem entry_dropRef' (st : ImageStore) (h k : Nat) (hk : k < 128) :
    (st.dropRef h).entry k =
      if k = h then { st.entry k with stagedRefs := (st.entry k).stagedRefs - 1 } else st.entry k := by
  by_cases hh : h < 128
  · rw [entry_dropRef _ _ _ hh]
    by_cases e : k = h <;> simp [e]
  · have : k ≠ h := by omega
    simp [dropRef_ge st h (Nat.le_of_not_lt hh), this]

theorem entry_addRef' (st : ImageStore) (h k : Nat) (hk : k < 128) :
    (st.addRef h).entry k =
      if k = h then { st.entry k with stagedRefs := (st.entry k).stagedRefs + 1 } else st.entry k := by
  by_cases hh : h < 128
  · rw [entry_addRef _ _ _ hh]
    by_cases e : k = h <;> simp [e]
  · have : k ≠ h := by omega
    simp [addRef_ge st h (Nat.le_of_not_lt hh), this]

/-- The directory after a record's image changes (R8). -/
theorem entry_moveRef (st : ImageStore) (o i : Option Nat) (h : Nat) (hh : h < 128) :
    (st.moveRef o i).entry h = st.entryAfterEdit o i h := by
  unfold ImageStore.moveRef ImageStore.entryAfterEdit refsAfter
  by_cases e : o = i
  · simp [e]
  · rw [if_neg e]
    cases o with
    | none =>
      cases i with
      | none => exact absurd rfl e
      | some b =>
        simp only [entry_addRef' _ _ _ hh]
        by_cases hb : h = b <;> simp [hb, eq_comm]
    | some a =>
      cases i with
      | none =>
        simp only [entry_dropRef' _ _ _ hh]
        by_cases ha : h = a <;> simp [ha, eq_comm]
      | some b =>
        simp only [entry_addRef' _ _ _ hh, entry_dropRef' _ _ _ hh]
        by_cases hb : h = b
        · subst hb
          have : h ≠ a := fun x => e (by rw [x])
          simp [this, Ne.symm this]
        · by_cases ha : h = a
          · subst ha
            simp [hb, Ne.symm hb]
          · simp [hb, ha, Ne.symm ha, Ne.symm hb]

@[simp] theorem moveRef_memory (st : ImageStore) (o i : Option Nat) : (st.moveRef o i).memory = st.memory := by
  unfold ImageStore.moveRef
  split
  · rfl
  · cases o <;> cases i <;> rfl

@[simp] theorem moveRef_freePages (st : ImageStore) (o i : Option Nat) : (st.moveRef o i).freePages = st.freePages := by
  unfold ImageStore.moveRef
  split
  · rfl
  · cases o <;> cases i <;> rfl

/-! ### Pages (R68) -/

/-- A sum over a list with one element replaced. -/
theorem sum_map_set {α : Type} (l : List α) (i : Nat) (h : i < l.length) (x : α) (f : α → Nat) :
    ((l.set i x).map f).sum + f l[i] = (l.map f).sum + f x := by
  induction l generalizing i with
  | nil => simp at h
  | cons a l ih =>
    cases i with
    | zero => simp; omega
    | succ i =>
      have := ih i (by simpa using h)
      simp only [List.set_cons_succ, List.map_cons, List.sum_cons, List.getElem_cons_succ]
      omega

/-- How often a page is used after one entry is replaced: the old entry's uses out, the new entry's in. -/
theorem pageUses_setEntry (st : ImageStore) (h : Nat) (hh : h < 128) (e : ImageEntry) (p : PageNo) :
    (st.setEntry h e).pageUses p + (st.entry h).pages.count p = st.pageUses p + e.pages.count p := by
  have hl : h < st.directory.toList.length := by simpa using hh
  have := sum_map_set st.directory.toList h hl e (fun e => e.pages.count p)
  have e1 : st.directory.toList[h] = st.entry h := by
    simp [ImageStore.entry, getD_eq, hh]
  rw [e1] at this
  simp only [ImageStore.pageUses, ImageStore.setEntry, Vector.toList_setIfInBounds]
  omega

/-- Entries that go FREE with their pages joining the free list leave every page as often used (R68). -/
theorem pageUses_free (st : ImageStore) (f : ImageEntry → Bool) (g : ImageEntry → ImageEntry)
    (h1 : ∀ e, f e = true → (g e).pages = []) (h2 : ∀ e, f e = false → (g e).pages = e.pages) (p : PageNo) :
    ImageStore.pageUses { st with
      directory := st.directory.map g
      freePages := st.freePages ++ (st.directory.toList.filter f).flatMap ImageEntry.pages } p = st.pageUses p := by
  simp only [ImageStore.pageUses, Vector.toList_map, List.count_append]
  generalize st.directory.toList = l
  have : ((l.filter f).flatMap ImageEntry.pages).count p + (l.map fun e => (g e).pages.count p).sum =
      (l.map fun e => e.pages.count p).sum := by
    induction l with
    | nil => rfl
    | cons e l ih =>
      cases he : f e
      · simp [he, h2 e he]; omega
      · simp [he, h1 e he]; omega
  simp only [List.map_map, Function.comp_def]
  omega

/-- The free page list of hard reset names every page once. -/
theorem count_finRange (p : PageNo) : (List.finRange Config.pageCount).count p = 1 :=
  List.count_eq_one_of_mem (List.nodup_finRange _) (List.mem_finRange _)

/-- Reference counts do not move pages. -/
theorem pages_moveRef (st : ImageStore) (o i : Option Nat) (p : PageNo) : (st.moveRef o i).pageUses p = st.pageUses p := by
  unfold ImageStore.moveRef
  have d : ∀ (st : ImageStore) h, (st.dropRef h).pageUses p = st.pageUses p := by
    intro st h
    by_cases hh : h < 128
    · have := pageUses_setEntry st h hh { st.entry h with stagedRefs := (st.entry h).stagedRefs - 1 } p
      have e : (ImageEntry.pages { st.entry h with stagedRefs := (st.entry h).stagedRefs - 1 }) = (st.entry h).pages := rfl
      rw [e] at this
      exact Nat.add_right_cancel this
    · rw [dropRef_ge _ _ (Nat.le_of_not_lt hh)]
  have a : ∀ (st : ImageStore) h, (st.addRef h).pageUses p = st.pageUses p := by
    intro st h
    by_cases hh : h < 128
    · have := pageUses_setEntry st h hh { st.entry h with stagedRefs := (st.entry h).stagedRefs + 1 } p
      have e : (ImageEntry.pages { st.entry h with stagedRefs := (st.entry h).stagedRefs + 1 }) = (st.entry h).pages := rfl
      rw [e] at this
      exact Nat.add_right_cancel this
    · rw [addRef_ge _ _ (Nat.le_of_not_lt hh)]
  split
  · rfl
  · cases o <;> cases i <;> simp [d, a]

/-! ### Palettes -/

/-- One write read back at any palette and index that exist. -/
theorem entryAt_writeActive (u : PaletteUnit) (w : PaletteWrite) (p i : Nat) (hp : p < 8) (hi : i < 256) :
    (u.writeActive w).entryAt p i = if w.palette = p ∧ w.index = i then w.entry else u.entryAt p i := by
  simp only [PaletteUnit.writeActive, PaletteUnit.entryAt, getD_setIfInBounds]
  by_cases h : p = w.palette
  · subst h
    simp only [hp, and_self, if_true, getD_setIfInBounds]
    by_cases h2 : i = w.index
    · subst h2
      simp [hi]
    · simp [h2, Ne.symm h2]
  · simp [h, Ne.symm h]

@[simp] theorem writeActive_writes (u : PaletteUnit) (w : PaletteWrite) : (u.writeActive w).writes = u.writes := rfl

/-- The pending writes taken one after the other: with at most one for a pair, each pair written holds its write (R93). -/
theorem entryAt_foldl_writeActive (l : List PaletteWrite) (u : PaletteUnit) (p i : Nat) (hp : p < 8) (hi : i < 256)
    (once : l.Pairwise fun a b => ¬(a.palette = b.palette ∧ a.index = b.index)) :
    (l.foldl PaletteUnit.writeActive u).entryAt p i =
      match l.find? (fun w => w.palette == p && w.index == i) with
      | some w => w.entry
      | none => u.entryAt p i := by
  induction l generalizing u with
  | nil => rfl
  | cons w l ih =>
    rw [List.pairwise_cons] at once
    rw [List.foldl_cons, ih _ once.2, List.find?_cons]
    by_cases h : w.palette = p ∧ w.index = i
    · have hn : l.find? (fun v => v.palette == p && v.index == i) = none := by
        rw [List.find?_eq_none]
        intro v hv
        have := once.1 v hv
        rw [h.1, h.2] at this
        intro hv2
        rw [Bool.and_eq_true, beq_iff_eq, beq_iff_eq] at hv2
        exact this ⟨hv2.1.symm, hv2.2.symm⟩
      have hw : (w.palette == p && w.index == i) = true := by simp [h.1, h.2]
      simp only [hn, hw]
      rw [entryAt_writeActive _ _ _ _ hp hi, if_pos h]
    · have hw : (w.palette == p && w.index == i) = false := by
        rw [← Bool.not_eq_true, Bool.and_eq_true]
        simpa using h
      rw [hw]
      cases l.find? (fun v => v.palette == p && v.index == i) with
      | some v => rfl
      | none => simp only [entryAt_writeActive _ _ _ _ hp hi, if_neg h]

@[simp] theorem applyWrites_writes (u : PaletteUnit) : u.applyWrites.writes = [] := rfl

/-- The active palettes after an apply (R93). -/
theorem entryAt_applyWrites (u : PaletteUnit) (p i : Nat) (hp : p < 8) (hi : i < 256)
    (once : u.writes.Pairwise fun a b => ¬(a.palette = b.palette ∧ a.index = b.index)) :
    u.applyWrites.entryAt p i =
      match u.writes.find? (fun w => w.palette == p && w.index == i) with
      | some w => w.entry
      | none => u.entryAt p i :=
  entryAt_foldl_writeActive u.writes u p i hp hi once

/-! ### The whole apply, and the clearing of CLEAR_ALL -/

theorem afterApply_eq (e : ImageEntry) : e.afterApply =
    if e.isRetiring = true ∧ e.stagedRefs = 0 then ImageEntry.free else { e with activeRefs := e.stagedRefs } := by
  unfold ImageEntry.afterApply ImageEntry.freedByApply ImageEntry.isRetiring
  cases e.image <;> simp

theorem freedByApply_eq (e : ImageEntry) : e.freedByApply = true ↔ e.isRetiring = true ∧ e.stagedRefs = 0 := by
  unfold ImageEntry.freedByApply ImageEntry.isRetiring
  cases e.image <;> simp

/-- What an apply does to the tables (R31 to R33). -/
theorem applyTables_applied (s : State)
    (once : s.palettes.writes.Pairwise fun a b => ¬(a.palette = b.palette ∧ a.index = b.index)) :
    s.Applied (applyTables s) where
  staged := rfl
  active i := activeFields_applyStaged s.objects i
  generations := rfl
  writes := rfl
  palettes p i hp hi := entryAt_applyWrites s.palettes p i hp hi once
  memory := rfl
  entries h _ := (entry_applyCounts s.images h).trans (afterApply_eq _)
  pages := by
    change s.images.freePages ++ _ = _
    rw [filtered_pages]
    simp only [freedByApply_eq]

/-- What the clearing of CLEAR_ALL does to the tables (R42, R43). -/
theorem clearStagedSide_cleared (s : State) : s.Cleared (clearStagedSide s) where
  staged i := stagedAt_clearStaged s.objects i
  active := rfl
  generations := rfl
  palettes := rfl
  memory := rfl
  entries h _ := by
    change s.images.clearCounts.entry h = _
    rw [entry_clearCounts]
    rfl
  pages := by
    change s.images.freePages ++ _ = _
    rw [filtered_pages]

end Sys2Proof.Machine
end

