-- ==== Sys2Proof/Laws/Exec.lean ====
section
/-! SUPPORT. What any command can do to the session and to the tables (the object table, the generation controller, the image
store and the palettes), said once: nothing, an apply at a FRAME_START, a host command taken, or a hard reset. -/

set_option Elab.async false

namespace Sys2Proof.Machine

/-- The two states agree on the tables. -/
structure SameTables (s t : State) : Prop where
  objects : t.objects = s.objects
  generations : t.generations = s.generations
  images : t.images = s.images
  palettes : t.palettes = s.palettes

theorem SameTables.refl (s : State) : SameTables s s := ⟨rfl, rfl, rfl, rfl⟩

theorem SameTables.trans {s t u : State} (a : SameTables s t) (b : SameTables t u) : SameTables s u :=
  ⟨b.objects.trans a.objects, b.generations.trans a.generations, b.images.trans a.images, b.palettes.trans a.palettes⟩

theorem SameTables.symm {s t : State} (a : SameTables s t) : SameTables t s :=
  ⟨a.objects.symm, a.generations.symm, a.images.symm, a.palettes.symm⟩

/-- The apply of two states with the same tables makes the same tables. -/
theorem SameTables.apply {s t : State} (a : SameTables s t) : SameTables (applyTables s) (applyTables t) := by
  constructor <;> simp [applyTables, a.objects, a.generations, a.images, a.palettes]

theorem sameTables_applyGeneration (s : State) : SameTables (applyTables s) (applyGeneration s) := ⟨rfl, rfl, rfl, rfl⟩

theorem sameTables_outputSlot (s : State) : SameTables s (outputSlot s) := by constructor <;> simp

/-- The state a command finds that arrives in a packet: the PACKET_END joined and the packet closed, its symbols released or
replaced. It differs from the state before in the filter's queue and reception alone. -/
structure PacketTaken (s u : State) : Prop where
  eq : u = { s with filter := u.filter }
  crc : u.filter.crcTally = s.filter.crcTally
  trunc : u.filter.truncTally = s.filter.truncTally

/-- What one command does to the session and the tables. -/
inductive Effect (c : Instr) (s t : State) : Prop
  /-- The session and the tables stand. -/
  | quiet (session : t.session = s.session) (tables : SameTables s t)
  /-- A FRAME_START whose apply is due. -/
  | apply (frame : c = .frameStart) (receiving : s.receiving = true)
      (due : s.generations.commit.dueAt (s.tracker.frameCounter + 1) = true) (session : t.session = s.session)
      (tables : SameTables (applyTables s) t)
  /-- A host command taken, by its own row. -/
  | host (how : Addressing) (seq code : Byte) (p : List Byte) (row : carried c = some (how, seq, code, p))
      (reach : s.takesCommands = true) (eq : t = handOver how seq code p s)
  /-- A host command taken in the PACKET_END event of its packet. -/
  | packet (how : Addressing) (seq code : Byte) (p : List Byte) (u : State) (row : c = .packetEnd)
      (receiving : s.receiving = true) (holding : s.filter.reception = .holding)
      (found : PacketTaken (trackSymbol .packetEnd s) u)
      (good : ∃ dest, checkPacket (heldBytes s.filter.holdQueue) = .good dest seq code p ∧
        ((dest = 15 ∧ how = .broadcast) ∨ (dest = s.unitAddress ∧ dest ≠ 15 ∧ how = .unicast)))
      (eq : t = outputSlot (handOver how seq code p u))
  /-- The end of a hard reset. -/
  | reset (straps : BitVec 4) (row : c = .resetRelease straps ∨ c = .powerUp straps) (u : State) (eq : t = hardReset straps u)

theorem trackFrameStart_counter (s : State) :
    (trackFrameStart s).tracker.frameCounter = s.tracker.frameCounter + 1 := by
  unfold trackFrameStart
  split
  · rfl
  · dsimp only; split <;> rfl
  · rfl
  · split
    · rfl
    · simp [takeFault, Tracker.reacquire, Tracker.beginFrame, Tracker.move, Tracker.recordFault, stopCompositing_tracker]

theorem effect_onSymbol {c : Instr} {s : State} {f : State → State} (hs : (f s).session = s.session)
    (ht : SameTables s (f s)) : Effect c s (onSymbol f s) := by
  unfold onSymbol
  split
  · exact .quiet (by simp [hs]) (ht.trans (sameTables_outputSlot _))
  · exact .quiet rfl (SameTables.refl s)

theorem effect_frameStart (s : State) : Effect .frameStart s (onSymbol takeFrameStart s) := by
  unfold onSymbol
  split
  · next hr =>
    by_cases hd : s.generations.commit.dueAt (s.tracker.frameCounter + 1) = true
    · refine .apply rfl hr hd (by simp [takeFrameStart]) ?_
      have h1 : SameTables s (trackFrameStart s) := by constructor <;> simp
      have h2 : applyIfDue (trackFrameStart s) = applyGeneration (trackFrameStart s) := by
        unfold applyIfDue
        rw [trackFrameStart_counter, trackFrameStart_generations, if_pos hd]
      have h3 : SameTables (applyTables s) (applyIfDue (trackFrameStart s)) := by
        rw [h2]; exact h1.apply.trans (sameTables_applyGeneration _)
      refine h3.trans ?_
      constructor <;> simp [takeFrameStart]
    · have h2 : applyIfDue (trackFrameStart s) = trackFrameStart s := by
        unfold applyIfDue
        rw [trackFrameStart_counter, trackFrameStart_generations, if_neg hd]
      refine .quiet (by simp [takeFrameStart]) ?_
      constructor <;> simp [takeFrameStart, h2]
  · exact .quiet rfl (SameTables.refl s)

theorem effect_packetEnd (s : State) : Effect .packetEnd s (onSymbol (fun u => filterPacketEnd (trackSymbol .packetEnd u)) s) := by
  have pass : ∀ f : State → State, (∀ u, (f u).session = u.session) → (∀ u, SameTables u (f u)) →
      filterPacketEnd (trackSymbol .packetEnd s) = f (trackSymbol .packetEnd s) →
      s.receiving = true → Effect .packetEnd s (outputSlot (filterPacketEnd (trackSymbol .packetEnd s))) := by
    intro f h1 h2 h3 _
    rw [h3]
    refine .quiet (by simp [h1]) ?_
    refine SameTables.trans (t := trackSymbol .packetEnd s) (by constructor <;> simp) ?_
    exact (h2 _).trans (sameTables_outputSlot _)
  unfold onSymbol
  split
  · next hr =>
    cases hk : s.filter.reception with
    | none =>
      exact pass (join .packetEnd false) (fun _ => rfl) (fun _ => ⟨rfl, rfl, rfl, rfl⟩)
        (by simp [filterPacketEnd, hk]) hr
    | overlong =>
      exact pass (fun u => countTruncated (closePacket (join .packetEnd false u))) (fun _ => rfl)
        (fun _ => ⟨rfl, rfl, rfl, rfl⟩) (by simp [filterPacketEnd, hk]) hr
    | unexamined =>
      exact pass (fun u => closePacket (join .packetEnd false u)) (fun _ => rfl)
        (fun _ => ⟨rfl, rfl, rfl, rfl⟩) (by simp [filterPacketEnd, hk]) hr
    | holding =>
      have hd : filterPacketEnd (trackSymbol .packetEnd s) = decidePacket (trackSymbol .packetEnd s) := by
        simp [filterPacketEnd, hk]
      cases hg : checkPacket (heldBytes s.filter.holdQueue) with
      | badLength =>
        exact pass (fun u => countTruncated (releaseAll (closePacket (join .packetEnd true u)))) (fun _ => rfl)
          (fun _ => ⟨rfl, rfl, rfl, rfl⟩) (by simp [hd, decidePacket, hg]) hr
      | badCrc =>
        exact pass (fun u => countCrc (releaseAll (closePacket (join .packetEnd true u)))) (fun _ => rfl)
          (fun _ => ⟨rfl, rfl, rfl, rfl⟩) (by simp [hd, decidePacket, hg]) hr
      | good dest seq code p =>
        by_cases h15 : dest = 15
        · refine .packet .broadcast seq code p (releaseAll (closePacket (join .packetEnd true (trackSymbol .packetEnd s)))) rfl hr hk
            ⟨rfl, rfl, rfl⟩ ⟨dest, hg, .inl ⟨h15, rfl⟩⟩ ?_
          simp [hd, decidePacket, hg, h15]
        · by_cases ha : dest = s.unitAddress
          · refine .packet .unicast seq code p (removeHeld (closePacket (join .packetEnd true (trackSymbol .packetEnd s)))) rfl hr hk
              ⟨rfl, rfl, rfl⟩ ⟨dest, hg, .inr ⟨ha, h15, rfl⟩⟩ ?_
            subst ha
            simp only [hd, decidePacket, trackSymbol_filter, hg, if_neg h15, trackSymbol_unitAddress, if_true]
          · exact pass (fun u => releaseAll (closePacket (join .packetEnd true u))) (fun _ => rfl)
              (fun _ => ⟨rfl, rfl, rfl, rfl⟩) (by simp only [hd, decidePacket, trackSymbol_filter, hg, if_neg h15, trackSymbol_unitAddress, if_neg ha]) hr
  · exact .quiet rfl (SameTables.refl s)

/-- Every command's effect is one of the five. -/
theorem exec_effect {c : Instr} {s t : State} (h : exec c s = .next t) : Effect c s t := by
  cases hc : carried c with
  | some x =>
    obtain ⟨how, seq, code, p⟩ := x
    rw [exec_host hc] at h
    injection h with h
    subst h
    unfold takeCommand
    split
    · next hr => exact .host how seq code p hc hr rfl
    · exact .quiet rfl (SameTables.refl s)
  | none =>
    have quiet : ∀ u : State, Host.Outcome.next u = (Host.Outcome.next t : Result) → u.session = s.session →
        SameTables s u → Effect c s t := by
      intro u hu h1 h2
      injection hu with hu
      subst hu
      exact .quiet h1 h2
    cases c <;> simp only [carried, reduceCtorEq] at hc
    case frameStart => injection h with h; subst h; exact effect_frameStart s
    case packetEnd => injection h with h; subst h; exact effect_packetEnd s
    case lineStart =>
      injection h with h; subst h
      exact effect_onSymbol (by simp [takeLineStart]) (by constructor <;> simp [takeLineStart])
    case pixel c0 c1 c2 =>
      injection h with h; subst h
      exact effect_onSymbol (by simp [takePixel]) (by constructor <;> simp [takePixel])
    case lineEnd =>
      injection h with h; subst h
      exact effect_onSymbol (by simp [takeLineEnd]) (by constructor <;> simp [takeLineEnd])
    case frameEnd =>
      injection h with h; subst h
      exact effect_onSymbol (by simp [takeFrameEnd]) (by constructor <;> simp [takeFrameEnd])
    case packetStart =>
      injection h with h; subst h
      exact effect_onSymbol (by simp) (by constructor <;> simp)
    case packetByte b =>
      injection h with h; subst h
      exact effect_onSymbol (by simp) (by constructor <;> simp)
    case idle =>
      injection h with h; subst h
      exact effect_onSymbol (by simp) (by constructor <;> simp)
    case forwardLinkDown =>
      refine quiet _ h ?_ ?_
      · split <;> simp [loseForwardLink]
      · split
        · constructor <;> simp [loseForwardLink]
        · exact SameTables.refl s
    case forwardLinkUp =>
      refine quiet _ h ?_ ?_
      · split
        · unfold gainForwardLink; dsimp only; split <;> rfl
        · rfl
      · split
        · unfold gainForwardLink; dsimp only; split <;> exact ⟨rfl, rfl, rfl, rfl⟩
        · exact SameTables.refl s
    case drainEnd =>
      refine quiet _ h ?_ ?_
      · unfold endDrain; split <;> simp
      · unfold endDrain; split
        · exact SameTables.refl s
        · constructor <;> simp
    case resetAssert =>
      refine quiet _ h ?_ ?_
      · split <;> simp [assertReset]
      · split
        · exact SameTables.refl s
        · constructor <;> simp [assertReset]
    case resetRelease straps => injection h with h; exact .reset straps (.inl rfl) _ h.symm
    case powerUp straps => injection h with h; exact .reset straps (.inr rfl) _ h.symm
    case transmissionStart => exact quiet _ h (by simp) (by constructor <;> simp)
    case transmissionEnd => exact quiet _ h (by simp) (by constructor <;> simp)
    case relayPacketStart => exact quiet _ h (by simp) (by constructor <;> simp)
    case relayPacketByte b => exact quiet _ h (by simp) (by constructor <;> simp)
    case relayPacketEnd => exact quiet _ h (by simp) (by constructor <;> simp)
    all_goals
      refine quiet _ h ?_ ?_
      · first | rfl | (split <;> rfl)
      · first | exact ⟨rfl, rfl, rfl, rfl⟩ | (split <;> exact ⟨rfl, rfl, rfl, rfl⟩)

/-! ### A host command taken -/

/-- What a host command taken does to the tables: nothing, or what its block does with a state that has the same tables, the
same tracker and the same address. -/
theorem handOver_tables (how : Addressing) (seq code : Byte) (p : List Byte) (s : State) :
    SameTables s (handOver how seq code p s) ∨
    ∃ u : State, SameTables s u ∧ u.tracker = s.tracker ∧ u.unitAddress = s.unitAddress ∧
      SameTables (dispatch code p u).state (handOver how seq code p s) ∧
      (how = .broadcast → broadcastable code p = true ∧ u = s ∧ (dispatch code p s).status = .ok) := by
  have fill : ∀ a r (x : State), SameTables x (fillSlot a r x) := fun _ _ _ => ⟨rfl, rfl, rfl, rfl⟩
  have acc : ∃ u : State, SameTables s u ∧ u.tracker = s.tracker ∧ u.unitAddress = s.unitAddress ∧
      SameTables (dispatch code p u).state (acceptCommand seq code p (reserveSlot s)) :=
    ⟨s.opened seq, ⟨rfl, rfl, rfl, rfl⟩, rfl, rfl, ⟨rfl, rfl, rfl, rfl⟩⟩
  have same : ∀ a r, SameTables s (fillSlot a r (reserveSlot s)) := fun _ _ => ⟨rfl, rfl, rfl, rfl⟩
  cases how with
  | unicast =>
    have lift : (∃ u : State, SameTables s u ∧ u.tracker = s.tracker ∧ u.unitAddress = s.unitAddress ∧
        SameTables (dispatch code p u).state (acceptCommand seq code p (reserveSlot s))) →
        ∃ u : State, SameTables s u ∧ u.tracker = s.tracker ∧ u.unitAddress = s.unitAddress ∧
        SameTables (dispatch code p u).state (acceptCommand seq code p (reserveSlot s)) ∧
        (Addressing.unicast = .broadcast → broadcastable code p = true ∧ u = s ∧ (dispatch code p s).status = .ok) := by
      rintro ⟨u, a, b, c, d⟩
      exact ⟨u, a, b, c, d, fun h => by cases h⟩
    simp only [handOver, takeUnicast]
    split
    · exact .inl ⟨rfl, rfl, rfl, rfl⟩
    · unfold sequenceStage
      split
      · split
        · exact .inr (lift acc)
        · exact .inl (same _ _)
      · split
        · exact .inl (same _ _)
        · split
          · exact .inr (lift acc)
          · exact .inl (same _ _)
  | broadcast =>
    simp only [handOver, takeBroadcast]
    split
    · next hb =>
      by_cases hk : (dispatch code p s).status = .ok
      · refine .inr ⟨s, SameTables.refl s, rfl, rfl, ?_, fun _ => ⟨hb, rfl, hk⟩⟩
        rw [if_pos hk]
        exact SameTables.refl _
      · rw [if_neg hk]
        exact .inl ⟨rfl, rfl, rfl, rfl⟩
    · exact .inl ⟨rfl, rfl, rfl, rfl⟩

/-- What any command but a hard reset's end does to the tables: nothing, an apply, or what a block does with a state that has
the same tables. -/
theorem exec_tables {c : Instr} {s t : State} (h : exec c s = .next t) (hc : isHardReset c = false) :
    SameTables s t ∨
    (c = .frameStart ∧ s.receiving = true ∧ s.generations.commit.dueAt (s.tracker.frameCounter + 1) = true ∧
      SameTables (applyTables s) t) ∨
    ∃ code p u, SameTables s u ∧ SameTables (dispatch code p u).state t ∧ u.unitAddress = s.unitAddress ∧
      ((∃ how seq, carried c = some (how, seq, code, p)) ∧ u.tracker = s.tracker ∨
        c = .packetEnd ∧ s.filter.reception = .holding ∧ u.tracker = (trackSymbol .packetEnd s).tracker ∧
          ∃ dest seq, checkPacket (heldBytes s.filter.holdQueue) = .good dest seq code p) := by
  cases exec_effect h with
  | quiet _ tables => exact .inl tables
  | apply frame receiving due _ tables => exact .inr (.inl ⟨frame, receiving, due, tables⟩)
  | host how seq code p row reach eq =>
    subst eq
    rcases handOver_tables how seq code p s with h1 | ⟨u, h1, h2, h3, h4, -⟩
    · exact .inl h1
    · exact .inr (.inr ⟨code, p, u, h1, h4, h3, .inl ⟨⟨how, seq, row⟩, h2⟩⟩)
  | packet how seq code p u row receiving holding found good eq =>
    subst eq
    have hsu : SameTables s u := by
      rw [found.eq]
      constructor <;> simp
    have htr : u.tracker = (trackSymbol .packetEnd s).tracker := by rw [found.eq]
    have hua : u.unitAddress = s.unitAddress := by rw [found.eq]; simp
    rcases handOver_tables how seq code p u with h1 | ⟨v, h1, h2, h3, h4, -⟩
    · exact .inl ((hsu.trans h1).trans (sameTables_outputSlot _))
    · obtain ⟨dest, hg, -⟩ := good
      exact .inr (.inr ⟨code, p, v, hsu.trans h1, h4.trans (sameTables_outputSlot _), h3.trans hua,
        .inr ⟨row, holding, h2.trans htr, dest, seq, hg⟩⟩)
  | reset straps row u eq => rcases row with rfl | rfl <;> simp [isHardReset] at hc

/-- A property of the tables that reset has, and that the apply and every block's answer keep, is kept by every step. -/
theorem step_keeps (P : State → Prop) (same : ∀ s t, SameTables s t → P s → P t) (reset : P State.reset)
    (apply : ∀ s, P s → P (applyTables s)) (answer : ∀ code p s, P s → P (dispatch code p s).state) {s t : State}
    (hs : P s) (h : step s = .next t) : P t := by
  unfold step at h
  split at h
  · injection h with h
    exact h ▸ hs
  · next c rest _ =>
    have hs' : P { s with pending := rest } := same s _ ⟨rfl, rfl, rfl, rfl⟩ hs
    by_cases hc : isHardReset c = false
    · rcases exec_tables h hc with h1 | ⟨-, -, -, h1⟩ | ⟨code, p, u, h1, h2, -⟩
      · exact same _ _ h1 hs'
      · exact same _ _ h1 (apply _ hs')
      · exact same _ _ h2 (answer _ _ _ (same _ _ h1 hs'))
    · cases exec_effect h with
      | reset straps row u eq => exact same State.reset t (by subst eq; exact ⟨rfl, rfl, rfl, rfl⟩) reset
      | quiet _ tables => exact same _ _ tables hs'
      | apply _ _ _ _ tables => exact same _ _ tables (apply _ hs')
      | host how seq code p row => cases c <;> simp [isHardReset, carried] at hc row
      | packet _ _ _ _ _ row => subst row; simp [isHardReset] at hc

/-! ### What a block can answer -/

/-- What a block's command can make of the state it finds. -/
inductive Answered (code : Byte) (p : List Byte) (s : State) : State → Prop
  /-- A refusal, or a command that returns data alone. -/
  | same : Answered code p s s
  /-- SET_EVENTS. -/
  | events (m : EventMask) (row : code = codeSetEvents) : Answered code p s { s with
      session := { s.session with mask := m }
      reports := { s.reports with events := s.reports.events.restrict m } }
  /-- DEFINE_OBJECT. -/
  | define (row : code = codeDefineObject) (idle : s.generations.commit.isArmed = false) (range : defineInRange p = true)
      (image : imageRefusal s (byteAt p 1) = none)
      (anchor : checkAnchorOption s.objects (byteAt p 0) (defineFields p).anchor = .passed) :
      Answered code p s (editStaged (byteAt p 0) (some (defineFields p)) s)
  /-- MOVE_OBJECT. -/
  | move (row : code = codeMoveObject) (idle : s.generations.commit.isArmed = false) (range : moveInRange p = true)
      (o : ObjectFields) (found : s.objects.stagedAt (byteAt p 0) = some o) :
      Answered code p s (editStaged (byteAt p 0) (some { o with x := s16At p 1, y := s16At p 3 }) s)
  /-- SET_OBJECT_ATTR. -/
  | attr (row : code = codeSetObjectAttr) (idle : s.generations.commit.isArmed = false) (range : attrInRange p = true)
      (o : ObjectFields) (found : s.objects.stagedAt (byteAt p 0) = some o)
      (image : imageRefusalOption s (attrImage p) = none)
      (anchor : checkAnchorOption s.objects (byteAt p 0) (attrAnchor p) = .passed) :
      Answered code p s (editStaged (byteAt p 0) (some (attrFields p o)) s)
  /-- DELETE_OBJECT. -/
  | delete (row : code = codeDeleteObject) (idle : s.generations.commit.isArmed = false) (range : byteAt p 0 < 64)
      (o : ObjectFields) (found : s.objects.stagedAt (byteAt p 0) = some o)
      (free : anchoredTo s.objects.stagedAt (byteAt p 0) = []) : Answered code p s (editStaged (byteAt p 0) none s)
  /-- COMMIT NEXT, COMMIT AT and CANCEL_COMMIT. -/
  | commit (row : code = codeCommit ∨ code = codeCancelCommit) (c : CommitState) : Answered code p s (setCommit c s)
  /-- COMMIT NOW. -/
  | now (row : code = codeCommit) (idle : s.generations.commit.isArmed = false) (unlocked : s.isLocked = false) :
      Answered code p s (applyGeneration s)
  /-- SET_MODE. -/
  | mode (row : code = codeSetMode) (idle : s.generations.commit.isArmed = false) (m : OutputMode)
      (named : outputModeOf (byteAt p 0) = some m) (range : colourInRange (colourAt p 1) = true) :
      Answered code p s { s with
        generations := { s.generations with stagedMode := m, stagedFill := colourAt p 1, stagedDirty := true } }
  /-- DISCARD. -/
  | discard (row : code = codeDiscard) (idle : s.generations.commit.isArmed = false) :
      Answered code p s (discardStagedSide s)
  /-- CLEAR_ALL while LOCKED. -/
  | clearArmed (row : code = codeClearAll) (locked : s.isLocked = true) :
      Answered code p s (setCommit .armedNext (clearStagedSide s))
  /-- CLEAR_ALL while not LOCKED. -/
  | clearNow (row : code = codeClearAll) (unlocked : s.isLocked = false) :
      Answered code p s (applyGeneration (clearStagedSide s))
  /-- CREATE_IMAGE. -/
  | create (row : code = codeCreateImage) (handle : byteAt p 0 < 128) (free : (s.images.entry (byteAt p 0)).image = none)
      (shape : imageShapeInRange (u16At p 1) (u16At p 3) (byteAt p 5) = true)
      (room : pagesFor (rowLengthOf (u16At p 1) (byteAt p 5) * u16At p 3) ≤ s.images.freePages.length) :
      Answered code p s { s with
        images := ImageStore.setEntry
          { s.images with
            freePages := s.images.freePages.drop (pagesFor (rowLengthOf (u16At p 1) (byteAt p 5) * u16At p 3)) }
          (byteAt p 0)
          { s.images.entry (byteAt p 0) with
            image := some (newImage s.images (u16At p 1) (u16At p 3) (byteAt p 5)) } }
  /-- LOAD_IMAGE. -/
  | load (row : code = codeLoadImage) (handle : byteAt p 0 < 128) (im : Image)
      (found : (s.images.entry (byteAt p 0)).image = some im) (loading : im.phase = .loading)
      (offset : u16At p 1 = im.cursor) (room : u16At p 1 + (p.drop 3).length ≤ im.size) :
      Answered code p s { s with
        images := ImageStore.setEntry
          { s.images with memory := writeImageBytes s.images.memory im.pageMap (u16At p 1) (p.drop 3) }
          (byteAt p 0)
          { s.images.entry (byteAt p 0) with image := some (im.advance (p.drop 3).length) } }
  /-- RESTART_IMAGE. -/
  | restart (row : code = codeRestartImage) (handle : byteAt p 0 < 128) (im : Image)
      (found : (s.images.entry (byteAt p 0)).image = some im) (ready : im.phase = .ready)
      (staged : (s.images.entry (byteAt p 0)).stagedRefs = 0) (active : (s.images.entry (byteAt p 0)).activeRefs = 0) :
      Answered code p s { s with
        images := s.images.setEntry (byteAt p 0)
          { s.images.entry (byteAt p 0) with image := some { im with phase := .loading, cursor := 0 } } }
  /-- RELEASE_IMAGE of an image still drawn. -/
  | retire (row : code = codeReleaseImage) (handle : byteAt p 0 < 128) (im : Image)
      (found : (s.images.entry (byteAt p 0)).image = some im) (ready : im.phase = .ready)
      (staged : (s.images.entry (byteAt p 0)).stagedRefs = 0) (active : 0 < (s.images.entry (byteAt p 0)).activeRefs) :
      Answered code p s { s with
        images := s.images.setEntry (byteAt p 0)
          { s.images.entry (byteAt p 0) with image := some { im with phase := .retiring } } }
  /-- RELEASE_IMAGE of an image not drawn. -/
  | release (row : code = codeReleaseImage) (handle : byteAt p 0 < 128) (im : Image)
      (found : (s.images.entry (byteAt p 0)).image = some im) (phase : im.phase ≠ .retiring)
      (staged : (s.images.entry (byteAt p 0)).stagedRefs = 0)
      (active : im.phase = .ready → (s.images.entry (byteAt p 0)).activeRefs = 0) :
      Answered code p s { s with images := s.images.freeImage (byteAt p 0) }
  /-- WRITE_PALETTE. -/
  | palette (row : code = codeWritePalette) (idle : s.generations.commit.isArmed = false)
      (range : paletteWriteInRange p = true)
      (room : s.palettes.writes.length + addedCount s.palettes.writes (paletteWrites p) ≤ 256) :
      Answered code p s { s with
        palettes := { s.palettes with writes := (paletteWrites p).foldl putWrite s.palettes.writes }
        generations := { s.generations with stagedDirty := true } }

/-- Every answer of a block is one of these. -/
theorem dispatch_answered (code : Byte) (p : List Byte) (s : State) : Answered code p s (dispatch code p s).state := by
  have ite : ∀ {c : Prop} [Decidable c] {a b : Answer}, (c → Answered code p s a.state) → (¬c → Answered code p s b.state) →
      Answered code p s (if c then a else b).state := by
    intro c _ a b h1 h2
    split
    · exact h1 ‹_›
    · exact h2 ‹_›
  unfold dispatch
  refine ite (fun _ => .same) fun _ => ite (fun _ => .same) fun hl => ?_
  refine ite (fun _ => .same) fun _ => ite (fun _ => .same) fun _ => ?_
  refine ite (fun h => ?_) fun _ => ?_
  · unfold commandSetEvents
    split
    · exact .same
    · exact .events _ h
  refine ite (fun h => ?_) fun _ => ?_
  · unfold commandDefineObject
    dsimp only
    refine ite (fun _ => .same) fun h1 => ite (fun _ => .same) fun h2 => ?_
    split
    · exact .same
    · next h3 =>
      split
      · exact .same
      · next h4 => exact .define h (by simpa using h1) (by simpa using h2) h3 h4
  refine ite (fun h => ?_) fun _ => ?_
  · unfold commandMoveObject
    dsimp only
    refine ite (fun _ => .same) fun h1 => ite (fun _ => .same) fun h2 => ?_
    split
    · exact .same
    · next o h3 => exact .move h (by simpa using h1) (by simpa using h2) o h3
  refine ite (fun h => ?_) fun _ => ?_
  · unfold commandSetObjectAttr
    dsimp only
    refine ite (fun _ => .same) fun h1 => ite (fun _ => .same) fun h2 => ?_
    split
    · exact .same
    · next o h3 =>
      split
      · exact .same
      · next h4 =>
        split
        · exact .same
        · next h5 => exact .attr h (by simpa using h1) (by simpa using h2) o h3 h4 h5
  refine ite (fun h => ?_) fun _ => ?_
  · unfold commandDeleteObject
    dsimp only
    refine ite (fun _ => .same) fun h1 => ite (fun _ => .same) fun h2 => ?_
    split
    · exact .same
    · next o h3 =>
      refine ite (fun _ => .same) fun h4 => ?_
      exact .delete h (by simpa using h1) (by simpa using h2) o h3 (by simpa using h4)
  refine ite (fun _ => ?_) fun _ => ?_
  · unfold commandReadObject
    exact ite (fun _ => .same) fun _ => .same
  refine ite (fun h => ?_) fun _ => ?_
  · unfold commandCommit
    split
    · unfold commandCommitNext
      exact ite (fun _ => .same) fun _ => .commit (.inl h) _
    · unfold commandCommitAt
      exact ite (fun _ => .same) fun _ => ite (fun _ => .same) fun _ => .commit (.inl h) _
    · unfold commandCommitNow
      refine ite (fun _ => .same) fun h1 => ite (fun _ => .same) fun h2 => ?_
      exact .now h (by simpa using h1) (by simpa using h2)
    · unfold commandCommitOther
      exact ite (fun _ => .same) fun _ => .same
  refine ite (fun h => ?_) fun _ => ?_
  · unfold commandCancelCommit
    dsimp only
    exact ite (fun _ => .commit (.inr h) _) fun _ => .same
  refine ite (fun h => ?_) fun _ => ?_
  · unfold commandSetMode
    refine ite (fun _ => .same) fun h1 => ?_
    split
    · exact .same
    · next m h2 =>
      dsimp only
      refine ite (fun _ => .same) fun h3 => ?_
      exact .mode h (by simpa using h1) m h2 (by simpa using h3)
  refine ite (fun h => ?_) fun _ => ?_
  · unfold commandDiscard
    refine ite (fun _ => .same) fun h1 => .discard h (by simpa using h1)
  refine ite (fun h => ?_) fun _ => ?_
  · unfold commandClearAll
    dsimp only
    by_cases h1 : s.isLocked = true
    · rw [if_pos h1]
      exact .clearArmed h h1
    · rw [if_neg h1]
      exact .clearNow h (by simpa using h1)
  refine ite (fun h => ?_) fun _ => ?_
  · unfold commandCreateImage
    dsimp only
    refine ite (fun _ => .same) fun h1 => ite (fun _ => .same) fun h2 => ite (fun _ => .same) fun h3 =>
      ite (fun _ => .same) fun h4 => ?_
    exact .create h (by simpa using h1) (by simpa using h2) (by simpa using h3) (by simpa [ImageStore.freeCount] using h4)
  refine ite (fun h => ?_) fun _ => ?_
  · unfold commandLoadImage
    dsimp only
    refine ite (fun _ => .same) fun h1 => ?_
    split
    · exact .same
    · next im h2 =>
      refine ite (fun _ => .same) fun h3 => ite (fun _ => .same) fun h4 => ite (fun _ => .same) fun h5 => ?_
      exact .load h (by simpa using h1) im h2 (by simpa using h3) (by simpa using h4) (Nat.le_of_not_lt h5)
  refine ite (fun h => ?_) fun _ => ?_
  · unfold commandRestartImage
    dsimp only
    refine ite (fun _ => .same) fun h1 => ite (fun _ => .same) fun h2 => ite (fun _ => .same) fun h3 => ?_
    split
    · exact .same
    · next im h4 =>
      refine ite (fun _ => .same) fun h5 => ?_
      exact .restart h (by simpa using h1) im h4 (by simpa using h5) (by omega) (by omega)
  refine ite (fun h => ?_) fun _ => ?_
  · unfold commandReleaseImage
    dsimp only
    refine ite (fun _ => .same) fun h1 => ite (fun _ => .same) fun h2 => ?_
    split
    · exact .same
    · next im h3 =>
      refine ite (fun _ => .same) fun h4 => ?_
      dsimp only
      by_cases h5 : im.phase = .ready ∧ 0 < (s.images.entry (byteAt p 0)).activeRefs
      · rw [if_pos h5]
        exact .retire h (by simpa using h1) im h3 h5.1 (by omega) h5.2
      · rw [if_neg h5]
        exact .release h (by simpa using h1) im h3 h4 (by omega) (fun h6 => by
          have : ¬ 0 < (s.images.entry (byteAt p 0)).activeRefs := fun h7 => h5 ⟨h6, h7⟩
          omega)
  refine ite (fun _ => ?_) fun _ => ?_
  · unfold commandImageInfo
    dsimp only
    exact ite (fun _ => .same) fun _ => .same
  refine ite (fun h => ?_) fun _ => ?_
  · unfold commandWritePalette
    dsimp only
    refine ite (fun _ => .same) fun h1 => ite (fun _ => .same) fun h2 => ite (fun _ => .same) fun h3 => ?_
    exact .palette h (by simpa using h1) (by simpa using h2) (Nat.le_of_not_lt h3)
  · unfold commandReadPalette
    exact ite (fun _ => .same) fun _ => .same

/-- The two states agree on the pins, the links, the tracker, the filter, the compositor, what the outputs have sent and the
waiting commands: all that a host command leaves alone. -/
structure SameFront (s t : State) : Prop where
  resetAsserted : t.resetAsserted = s.resetAsserted
  unitAddress : t.unitAddress = s.unitAddress
  fwdInUp : t.fwdInUp = s.fwdInUp
  fwdOutUp : t.fwdOutUp = s.fwdOutUp
  drains : t.drains = s.drains
  upstreamRoom : t.upstreamRoom = s.upstreamRoom
  tracker : t.tracker = s.tracker
  filter : t.filter = s.filter
  compositor : t.compositor = s.compositor
  fwdSent : t.fwdSent = s.fwdSent
  retSent : t.retSent = s.retSent
  pending : t.pending = s.pending

theorem SameFront.refl (s : State) : SameFront s s := ⟨rfl, rfl, rfl, rfl, rfl, rfl, rfl, rfl, rfl, rfl, rfl, rfl⟩

theorem SameFront.trans {s t u : State} (a : SameFront s t) (b : SameFront t u) : SameFront s u :=
  ⟨b.resetAsserted.trans a.resetAsserted, b.unitAddress.trans a.unitAddress, b.fwdInUp.trans a.fwdInUp,
   b.fwdOutUp.trans a.fwdOutUp, b.drains.trans a.drains, b.upstreamRoom.trans a.upstreamRoom, b.tracker.trans a.tracker,
   b.filter.trans a.filter, b.compositor.trans a.compositor, b.fwdSent.trans a.fwdSent, b.retSent.trans a.retSent,
   b.pending.trans a.pending⟩

theorem dispatch_front (code : Byte) (p : List Byte) (s : State) : SameFront s (dispatch code p s).state := by
  generalize (dispatch code p s).state = t, dispatch_answered code p s = h
  cases h <;> exact ⟨rfl, rfl, rfl, rfl, rfl, rfl, rfl, rfl, rfl, rfl, rfl, rfl⟩

theorem handOver_front (how : Addressing) (seq code : Byte) (p : List Byte) (s : State) :
    SameFront s (handOver how seq code p s) := by
  have fill : ∀ a r (x : State), SameFront x (fillSlot a r x) :=
    fun _ _ _ => ⟨rfl, rfl, rfl, rfl, rfl, rfl, rfl, rfl, rfl, rfl, rfl, rfl⟩
  have res : SameFront s (reserveSlot s) := ⟨rfl, rfl, rfl, rfl, rfl, rfl, rfl, rfl, rfl, rfl, rfl, rfl⟩
  have acc : SameFront s (acceptCommand seq code p (reserveSlot s)) := by
    have h1 : SameFront s (s.opened seq) := ⟨rfl, rfl, rfl, rfl, rfl, rfl, rfl, rfl, rfl, rfl, rfl, rfl⟩
    refine (h1.trans (dispatch_front code p _)).trans ?_
    exact ⟨rfl, rfl, rfl, rfl, rfl, rfl, rfl, rfl, rfl, rfl, rfl, rfl⟩
  have count : SameFront s (countRefusal s) := ⟨rfl, rfl, rfl, rfl, rfl, rfl, rfl, rfl, rfl, rfl, rfl, rfl⟩
  cases how with
  | unicast =>
    simp only [handOver, takeUnicast]
    split
    · exact ⟨rfl, rfl, rfl, rfl, rfl, rfl, rfl, rfl, rfl, rfl, rfl, rfl⟩
    · unfold sequenceStage
      split
      · split
        · exact acc
        · exact res.trans (fill _ _ _)
      · split
        · exact res.trans (fill _ _ _)
        · split
          · exact acc
          · exact res.trans (fill _ _ _)
  | broadcast =>
    simp only [handOver, takeBroadcast]
    split
    · split
      · exact dispatch_front code p s
      · exact count
    · exact count

end Sys2Proof.Machine
end

