-- ==== Sys2Proof/Laws/Reports.lean ====
section
/-! SUPPORT. Building reports and raising events: which fields they touch, when an event is built at once, and that the laws of the
report unit stand (R150 to R153). -/

set_option Elab.async false

namespace Sys2Proof.Machine

/-! ### Fields left alone -/

section
variable (r : ReportUnit) (a : BitVec 4)

@[simp] theorem buildOne_relay : (r.buildOne a).relay = r.relay := by unfold ReportUnit.buildOne; split <;> [rfl; split] <;> rfl
@[simp] theorem buildOne_transmitter : (r.buildOne a).transmitter = r.transmitter := by
  unfold ReportUnit.buildOne; split <;> [rfl; split] <;> rfl
@[simp] theorem buildOne_lastServed : (r.buildOne a).lastServed = r.lastServed := by
  unfold ReportUnit.buildOne; split <;> [rfl; split] <;> rfl
@[simp] theorem buildOne_inputLaneUp : (r.buildOne a).inputLaneUp = r.inputLaneUp := by
  unfold ReportUnit.buildOne; split <;> [rfl; split] <;> rfl
@[simp] theorem buildOne_outputLaneUp : (r.buildOne a).outputLaneUp = r.outputLaneUp := by
  unfold ReportUnit.buildOne; split <;> [rfl; split] <;> rfl

@[simp] theorem build_relay : (r.build a).relay = r.relay := by simp [ReportUnit.build]
@[simp] theorem build_transmitter : (r.build a).transmitter = r.transmitter := by simp [ReportUnit.build]
@[simp] theorem build_lastServed : (r.build a).lastServed = r.lastServed := by simp [ReportUnit.build]
@[simp] theorem build_inputLaneUp : (r.build a).inputLaneUp = r.inputLaneUp := by simp [ReportUnit.build]
@[simp] theorem build_outputLaneUp : (r.build a).outputLaneUp = r.outputLaneUp := by simp [ReportUnit.build]

variable (m : EventMask) (e : Event)

@[simp] theorem raise_unit_relay : (r.raise a m e).relay = r.relay := by unfold ReportUnit.raise; split <;> simp
@[simp] theorem raise_unit_transmitter : (r.raise a m e).transmitter = r.transmitter := by
  unfold ReportUnit.raise; split <;> simp
@[simp] theorem raise_unit_lastServed : (r.raise a m e).lastServed = r.lastServed := by unfold ReportUnit.raise; split <;> simp
@[simp] theorem raise_unit_inputLaneUp : (r.raise a m e).inputLaneUp = r.inputLaneUp := by
  unfold ReportUnit.raise; split <;> simp
@[simp] theorem raise_unit_outputLaneUp : (r.raise a m e).outputLaneUp = r.outputLaneUp := by
  unfold ReportUnit.raise; split <;> simp

end

/-- An event raised changes the report queue, the pending event set, and, where the arbiter begins its report, the transmitter and
the mark. -/
theorem raise_eq (e : Event) (s : State) :
    raise e s = { s with reports :=
      { s.reports with
        queue := (raise e s).reports.queue
        events := (raise e s).reports.events
        transmitter := (raise e s).reports.transmitter
        lastServed := (raise e s).reports.lastServed } } := by
  have h : (raise e s).reports = { s.reports with
      queue := (raise e s).reports.queue
      events := (raise e s).reports.events
      transmitter := (raise e s).reports.transmitter
      lastServed := (raise e s).reports.lastServed } := by
    have : ∀ r : ReportUnit, r.relay = s.reports.relay → r.inputLaneUp = s.reports.inputLaneUp →
        r.outputLaneUp = s.reports.outputLaneUp →
        r = { s.reports with queue := r.queue, events := r.events, transmitter := r.transmitter, lastServed := r.lastServed } := by
      rintro ⟨⟩ h1 h2 h3
      simp_all
    exact this _ (by simp [raise]) (by simp [raise]) (by simp [raise])
  exact congrArg (fun r => ({ s with reports := r } : State)) h

/-- The queue and the set after an event are those the report unit makes of it. -/
@[simp] theorem raise_queue (e : Event) (s : State) :
    (raise e s).reports.queue = (s.reports.raise s.unitAddress s.session.mask e).queue := by simp [raise]
@[simp] theorem raise_events (e : Event) (s : State) :
    (raise e s).reports.events = (s.reports.raise s.unitAddress s.session.mask e).events := by simp [raise]

/-! ### What building does to the queue and the set (R153) -/

theorem first_none {p : PendingEvents} (h : p.first = none) : p = PendingEvents.empty := by
  rcases p with ⟨_ | _, _ | _, _ | _, _ | _⟩ <;> simp [PendingEvents.first] at h ⊢
  rfl

@[simp] theorem first_empty : PendingEvents.empty.first = none := rfl

theorem buildOne_few {r : ReportUnit} (h : r.freeSlots < 2) (a : BitVec 4) : r.buildOne a = r := if_pos h

theorem buildOne_empty {r : ReportUnit} (h : r.events = PendingEvents.empty) (a : BitVec 4) : r.buildOne a = r := by
  unfold ReportUnit.buildOne
  split
  · rfl
  · rw [h]; rfl

theorem buildOne_some {r : ReportUnit} (h : 2 ≤ r.freeSlots) {e : Event} (he : r.events.first = some e) (a : BitVec 4) :
    r.buildOne a = { r with queue := r.queue ++ [.filled (eventReport a e)], events := r.events.drop e.kind } := by
  unfold ReportUnit.buildOne
  rw [if_neg (by omega), he]

/-- With fewer than two slots free nothing is built. -/
theorem build_few {r : ReportUnit} (h : r.freeSlots < 2) (a : BitVec 4) : r.build a = r := by
  simp [ReportUnit.build, buildOne_few h]

/-- With no event pending nothing is built. -/
theorem build_empty {r : ReportUnit} (h : r.events = PendingEvents.empty) (a : BitVec 4) : r.build a = r := by
  simp [ReportUnit.build, buildOne_empty h]

/-- The only pending event, built. -/
theorem build_single {r : ReportUnit} (h : 2 ≤ r.freeSlots) {e : Event} (he : r.events.first = some e)
    (hd : r.events.drop e.kind = PendingEvents.empty) (a : BitVec 4) :
    r.build a = { r with queue := r.queue ++ [.filled (eventReport a e)], events := PendingEvents.empty } := by
  unfold ReportUnit.build
  rw [buildOne_some h he, hd]
  have h2 : ∀ q : List ReportSlot, ReportUnit.buildOne { r with queue := q, events := PendingEvents.empty } a =
      { r with queue := q, events := PendingEvents.empty } := fun q => buildOne_empty rfl a
  rw [h2, h2, h2]

/-- With exactly two slots free one event is built: the first of the set. -/
theorem build_two {r : ReportUnit} (h : r.queue.length = 6) {e : Event} (he : r.events.first = some e) (a : BitVec 4) :
    r.build a = { r with queue := r.queue ++ [.filled (eventReport a e)], events := r.events.drop e.kind } := by
  unfold ReportUnit.build
  have hf : 2 ≤ r.freeSlots := by simp [ReportUnit.freeSlots, Config.reportSlots, h]
  rw [buildOne_some hf he]
  have h2 : ∀ p : PendingEvents,
      ReportUnit.buildOne { r with queue := r.queue ++ [.filled (eventReport a e)], events := p } a =
        { r with queue := r.queue ++ [.filled (eventReport a e)], events := p } := by
    intro p
    apply buildOne_few
    simp [ReportUnit.freeSlots, Config.reportSlots, h]
  rw [h2, h2, h2]

/-- The queue built on is the queue with reports appended. -/
theorem buildOne_prefix (r : ReportUnit) (a : BitVec 4) : r.queue <+: (r.buildOne a).queue := by
  unfold ReportUnit.buildOne
  split
  · exact List.prefix_rfl
  · split
    · exact List.prefix_rfl
    · exact List.prefix_append _ _

theorem build_prefix (r : ReportUnit) (a : BitVec 4) : r.queue <+: (r.build a).queue := by
  unfold ReportUnit.build
  exact (buildOne_prefix _ _).trans ((buildOne_prefix _ _).trans ((buildOne_prefix _ _).trans (buildOne_prefix _ _)))

/-- Every report appended is filled. -/
theorem buildOne_filled {r : ReportUnit} (h : ∀ x ∈ r.queue, x ≠ .reserved) (a : BitVec 4) :
    ∀ x ∈ (r.buildOne a).queue, x ≠ .reserved := by
  unfold ReportUnit.buildOne
  split
  · exact h
  · split
    · exact h
    · intro x hx
      simp only [List.mem_append, List.mem_singleton] at hx
      rcases hx with hx | rfl
      · exact h x hx
      · simp

theorem build_filled {r : ReportUnit} (h : ∀ x ∈ r.queue, x ≠ .reserved) (a : BitVec 4) :
    ∀ x ∈ (r.build a).queue, x ≠ .reserved :=
  buildOne_filled (buildOne_filled (buildOne_filled (buildOne_filled h a) a) a) a

/-- One slot always stays free of events: a queue of at most 8 stays one of at most 8. -/
theorem buildOne_length {r : ReportUnit} (h : r.queue.length ≤ 8) (a : BitVec 4) : (r.buildOne a).queue.length ≤ 8 := by
  unfold ReportUnit.buildOne
  split
  · exact h
  · split
    · exact h
    · next h2 _ _ _ => simp only [ReportUnit.freeSlots, Config.reportSlots, List.length_append, List.length_singleton] at h2 ⊢; omega

theorem build_length {r : ReportUnit} (h : r.queue.length ≤ 8) (a : BitVec 4) : (r.build a).queue.length ≤ 8 :=
  buildOne_length (buildOne_length (buildOne_length (buildOne_length h a) a) a) a

/-- The number of pending kinds. -/
def PendingEvents.size (p : PendingEvents) : Nat :=
  p.raster.toList.length + p.commit.toList.length + p.truncation.toList.length + p.link.toList.length

theorem size_le (p : PendingEvents) : p.size ≤ 4 := by
  rcases p with ⟨_ | _, _ | _, _ | _, _ | _⟩ <;> simp [PendingEvents.size]

theorem size_zero {p : PendingEvents} (h : p.size = 0) : p = PendingEvents.empty := by
  rcases p with ⟨_ | _, _ | _, _ | _, _ | _⟩ <;> simp [PendingEvents.size, PendingEvents.empty] at h ⊢

theorem size_drop {p : PendingEvents} {e : Event} (h : p.first = some e) : (p.drop e.kind).size + 1 = p.size := by
  rcases p with ⟨_ | _, _ | _, _ | _, _ | _⟩ <;> simp [PendingEvents.first] at h <;> subst h <;>
    simp [PendingEvents.drop, Event.kind, PendingEvents.size]

theorem buildOne_progress (r : ReportUnit) (a : BitVec 4) :
    (r.buildOne a).freeSlots < 2 ∨ (r.buildOne a).events.size + 1 ≤ r.events.size ∨ (r.buildOne a).events = PendingEvents.empty := by
  unfold ReportUnit.buildOne
  split
  · exact .inl ‹_›
  · split
    · next h => exact .inr (.inr (first_none h))
    · next e h => exact .inr (.inl (size_drop h).le)

/-- After the building, events wait only where at most one slot is free (R153). -/
theorem build_waiting (r : ReportUnit) (a : BitVec 4) : (r.build a).events ≠ PendingEvents.empty → (r.build a).freeSlots ≤ 1 := by
  have stop : ∀ {x : ReportUnit}, x.freeSlots < 2 ∨ x.events = PendingEvents.empty → x.buildOne a = x := by
    rintro x (h | h)
    · exact buildOne_few h a
    · exact buildOne_empty h a
  have key : ∀ x : ReportUnit, (x.buildOne a).freeSlots < 2 ∨ (x.buildOne a).events = PendingEvents.empty ∨
      (x.buildOne a).events.size + 1 ≤ x.events.size := by
    intro x; rcases buildOne_progress x a with h | h | h
    · exact .inl h
    · exact .inr (.inr h)
    · exact .inr (.inl h)
  have fin : (r.build a).freeSlots < 2 ∨ (r.build a).events = PendingEvents.empty := by
    unfold ReportUnit.build
    rcases key r with h | h | h1
    · simp only [stop (.inl h)]; exact .inl h
    · simp only [stop (.inr h)]; exact .inr h
    rcases key (r.buildOne a) with h | h | h2
    · simp only [stop (.inl h)]; exact .inl h
    · simp only [stop (.inr h)]; exact .inr h
    rcases key ((r.buildOne a).buildOne a) with h | h | h3
    · simp only [stop (.inl h)]; exact .inl h
    · simp only [stop (.inr h)]; exact .inr h
    rcases key (((r.buildOne a).buildOne a).buildOne a) with h | h | h4
    · exact .inl h
    · exact .inr h
    have := size_le r.events
    exact .inr (size_zero (by omega))
  intro h
  rcases fin with h1 | h1
  · omega
  · exact absurd h1 h

/-! ### Raising an event (R152) -/

theorem record_empty_first (e : Event) : (PendingEvents.empty.record e).first = some e := by cases e <;> rfl

theorem record_empty_drop (e : Event) : (PendingEvents.empty.record e).drop e.kind = PendingEvents.empty := by cases e <;> rfl

/-- A kind outside the mask leaves nothing behind. -/
theorem raise_masked {r : ReportUnit} {m : EventMask} {e : Event} (h : m.has e.kind = false) (a : BitVec 4) :
    r.raise a m e = r := by
  simp [ReportUnit.raise, h]

/-- With the set empty and two slots free the event is built at once. -/
theorem raise_built {r : ReportUnit} {m : EventMask} {e : Event} (h : m.has e.kind = true)
    (hp : r.events = PendingEvents.empty) (hf : 2 ≤ r.freeSlots) (a : BitVec 4) :
    r.raise a m e = { r with queue := r.queue ++ [.filled (eventReport a e)] } := by
  unfold ReportUnit.raise
  rw [if_pos h, hp,
    build_single (r := { r with events := PendingEvents.empty.record e }) hf (record_empty_first e) (record_empty_drop e)]

/-- With fewer than two slots free it waits in the set. -/
theorem raise_waits {r : ReportUnit} {m : EventMask} {e : Event} (h : m.has e.kind = true) (hf : r.freeSlots < 2)
    (a : BitVec 4) : r.raise a m e = { r with events := r.events.record e } := by
  unfold ReportUnit.raise
  rw [if_pos h]
  exact build_few (r := { r with events := r.events.record e }) hf a

/-- The reports that stood stand, in front of what is appended. -/
theorem raise_prefix (r : ReportUnit) (a : BitVec 4) (m : EventMask) (e : Event) : r.queue <+: (r.raise a m e).queue := by
  unfold ReportUnit.raise
  split
  · exact build_prefix { r with events := r.events.record e } a
  · exact List.prefix_rfl

/-- On a queue that is not empty the head stands, and the arbiter is not asked (R157). -/
theorem raise_behind {s : State} (h : s.reports.queue ≠ []) (e : Event) :
    raise e s = { s with reports := s.reports.raise s.unitAddress s.session.mask e } := by
  obtain ⟨tail, ht⟩ := raise_prefix s.reports s.unitAddress s.session.mask e
  cases hq : s.reports.queue with
  | nil => exact absurd hq h
  | cons x l =>
    cases x with
    | filled b => exact reportFilled_behind (by simp [ReportUnit.reportHead, hq]) _
    | reserved =>
      refine reportFilled_nothing (s := { s with reports := s.reports.raise s.unitAddress s.session.mask e }) ?_ _
      simp [ReportUnit.reportHead, ← ht, hq]

/-! ### The laws of the unit stand -/

/-- Building restores the one law that an event just recorded, or a slot just freed, may break. -/
theorem build_legal {r : ReportUnit} (hq : r.queue.length ≤ 8) (hf : ∀ x ∈ r.queue, x ≠ .reserved) (hr : r.relay.length ≤ 4)
    (ho : ∀ p ∈ r.relay.dropLast, p.whole = true)
    (hp : ∀ p ∈ r.relay, p.bytes.length ≤ 64 ∧ (p.whole = true → 8 ≤ p.bytes.length))
    (hs : ∀ q, r.transmitter = .sending q → (r.headOf q).isSome = true ∧ r.outputLaneUp = true)
    (ha : ∀ q, r.transmitter = .abandoned q → (r.headOf q).isSome = true) (a : BitVec 4) : (r.build a).Legal := by
  have hd : ∀ q, (r.headOf q).isSome = true → ((r.build a).headOf q).isSome = true := by
    intro q h
    cases q with
    | relay => simpa [ReportUnit.headOf, ReportUnit.relayHead] using h
    | report =>
      obtain ⟨t, ht⟩ := build_prefix r a
      simp only [ReportUnit.headOf, ReportUnit.reportHead] at h ⊢
      rw [← ht]
      cases hq : r.queue with
      | nil => rw [hq] at h; simp at h
      | cons x l => rw [hq] at h; cases x <;> simp at h ⊢
  exact ⟨build_length hq a, build_filled hf a, build_waiting r a, by simpa, by simpa, by simpa,
    fun q h => by rw [build_transmitter] at h; have := hs q h; exact ⟨hd q this.1, by simpa using this.2⟩,
    fun q h => by rw [build_transmitter] at h; exact hd q (ha q h)⟩

theorem raise_legal {r : ReportUnit} (h : r.Legal) (a : BitVec 4) (m : EventMask) (e : Event) : (r.raise a m e).Legal := by
  unfold ReportUnit.raise
  split
  · exact build_legal (r := { r with events := r.events.record e }) h.queue h.filled h.relay h.oneReceived h.places h.sending
      h.abandoned a
  · exact h

theorem raise_state_legal {s : State} (h : s.reports.Legal) (e : Event) : (raise e s).reports.Legal :=
  reportFilled_legal (s := { s with reports := _ }) (raise_legal h _ _ _) _

/-- An event leaves the arbiter nothing to decide where it had nothing to decide. -/
theorem raise_settled {s : State} (h : s.ArbiterSettled) (e : Event) : (raise e s).ArbiterSettled :=
  reportFilled_settled h (by simp [State.retOutUp]) rfl (by simp) (by simp [ReportUnit.relayHead])

end Sys2Proof.Machine
end

