-- ==== Sys2Proof/Laws/Apply.lean ====
section
/-! SUPPORT. A unicast command whose block makes an apply at once, and the armed commit state. -/

set_option Elab.async false

namespace Sys2Proof.Machine

theorem armed_false {s : State} (h : s.generations.commit = .idle) : s.generations.commit.isArmed = false := by simp [h, CommitState.isArmed]
theorem armed_true {s : State} (h : s.generations.commit ≠ .idle) : s.generations.commit.isArmed = true := by
  cases hg : s.generations.commit <;> simp_all [CommitState.isArmed]

/-- A unicast command whose block applies at once (R28, R43): the tables are those of the apply, the acknowledgement stands in the slot
reserved for it, and the COMMIT event behind it or in the pending set (R33, R136). -/
theorem exec_apply {s u : State} {i : Instr} {seq code : Byte} {p d : List Byte}
    (hc : carried i = some (.unicast, seq, code, p)) (he : s.Expects seq)
    (hr : dispatch code p (s.opened seq) = ⟨applyGeneration u, .ok, d⟩)
    (hu : u = { s.opened seq with objects := u.objects, generations := u.generations, images := u.images, palettes := u.palettes }) :
    ∃ t, exec i s = .next t ∧ SameTables (applyTables u) t ∧
      t = { s.accepted ⟨seq, code, .ok, d⟩ with
        objects := t.objects
        generations := t.generations
        palettes := t.palettes
        images := t.images
        reports := { (s.accepted ⟨seq, code, .ok, d⟩).reports with queue := t.reports.queue, events := t.reports.events } } ∧
      ∃ e, e = Event.commit ⟨u.generations.generation + 1, s.tracker.frameCounter⟩ ∧
      t.reports.events = ((s.opened seq).reports.raise s.unitAddress s.session.mask e).events ∧
      ∃ tail, ((s.opened seq).reports.raise s.unitAddress s.session.mask e).queue = s.reports.queue ++ .reserved :: tail ∧
        t.reports.queue = s.reports.queue ++ s.answer ⟨seq, code, .ok, d⟩ false :: tail := by
  have hsess : (applyGeneration u).session = (s.opened seq).session := by rw [applyGeneration_session, hu]
  have hrep : (applyGeneration u).reports = (s.opened seq).reports.raise s.unitAddress s.session.mask (.commit ⟨u.generations.generation + 1, s.tracker.frameCounter⟩) := by
    rw [hu]
    exact congrArg State.reports (raise_behind (s := applyTables { s.opened seq with
      objects := u.objects, generations := u.generations, images := u.images, palettes := u.palettes })
      (by simp [State.opened, reserveSlot, consume, applyTables]) _)
  obtain ⟨tail, htail⟩ : ∃ tail, ((s.opened seq).reports.raise s.unitAddress s.session.mask (.commit ⟨u.generations.generation + 1, s.tracker.frameCounter⟩)).queue = s.reports.queue ++ .reserved :: tail := by
    obtain ⟨t, ht⟩ := raise_prefix (s.opened seq).reports s.unitAddress s.session.mask (.commit ⟨u.generations.generation + 1, s.tracker.frameCounter⟩)
    exact ⟨t, by rw [← ht]; simp [State.opened, reserveSlot, consume]⟩
  have hfill := fillSlot_eq (a := ⟨seq, code, .ok, d⟩) (r := false)
    (s := { applyGeneration u with session := { (applyGeneration u).session with cached := some ⟨seq, code, .ok, d⟩ } }) he.2.2.1 (by simpa only [hrep] using htail)
  have hex : exec i s = .next (fillSlot ⟨seq, code, .ok, d⟩ false { applyGeneration u with session := { (applyGeneration u).session with cached := some ⟨seq, code, .ok, d⟩ } }) := by
    rw [exec_host hc, expects_take he]
    show Host.Outcome.next (fillSlot _ _ _) = _
    change Host.Outcome.next (fillSlot ⟨seq, code, (dispatch code p (s.opened seq)).status, (dispatch code p (s.opened seq)).data⟩ false
      { (dispatch code p (s.opened seq)).state with session := { (dispatch code p (s.opened seq)).state.session with cached := some ⟨seq, code, (dispatch code p (s.opened seq)).status, (dispatch code p (s.opened seq)).data⟩ } }) = _
    rw [hr]
  rw [hfill] at hex
  have hans : State.answer { applyGeneration u with session := { (applyGeneration u).session with cached := some ⟨seq, code, .ok, d⟩ } } ⟨seq, code, .ok, d⟩ false = s.answer ⟨seq, code, .ok, d⟩ false := by
    simp only [State.answer, hsess, applyGeneration_unitAddress]
    rw [hu]; rfl
  have hunit : ∀ (x : State) (r : ReportUnit), x.reports.relay = r.relay → x.reports.inputLaneUp = r.inputLaneUp →
      x.reports.outputLaneUp = r.outputLaneUp → x.reports.transmitter = r.transmitter → x.reports.lastServed = r.lastServed →
      x = { x with reports := { r with queue := x.reports.queue, events := x.reports.events } } := by
    rintro ⟨⟩ r h1 h2 h3 h4 h5
    dsimp only at h1 h2 h3 h4 h5
    simp only [← h1, ← h2, ← h3, ← h4, ← h5]
  refine ⟨_, hex, ⟨rfl, rfl, rfl, rfl⟩, ?_, _, rfl, ?_, tail, htail, ?_⟩
  · have hheads := reportFilled_heads s.reports
      (t := { applyGeneration u with
        session := { (applyGeneration u).session with cached := some ⟨seq, code, .ok, d⟩, discardTally := 0, firstDiscarded := none }
        reports := { (applyGeneration u).reports with queue := s.reports.queue ++ s.answer ⟨seq, code, .ok, d⟩ false :: tail } })
      (s := { s with
        session := s.session.accepted ⟨seq, code, .ok, d⟩
        reports := { s.reports with queue := s.reports.queue ++ [s.answer ⟨seq, code, .ok, d⟩ false] } })
      (by simp [State.retOutUp, hrep]; rw [hu]; rfl) (by simp; rw [hu]; rfl) (by simp [hrep]; rfl) (by simp [hrep]; rfl)
      (by simp [hrep, ReportUnit.relayHead]; rfl)
      (by cases hq : s.reports.queue with
          | nil => simp [ReportUnit.reportHead, State.answer]
          | cons x l => cases x <;> simp [ReportUnit.reportHead])
    rw [hans]
    have hb : ({ (applyGeneration u).reports with queue := s.reports.queue } : ReportUnit).reportHead = s.reports.reportHead := rfl
    rw [reportFilled_before hb]
    refine (hunit _ (s.accepted ⟨seq, code, .ok, d⟩).reports ?_ ?_ ?_ hheads.1 hheads.2).trans ?_
    · simp [hrep, State.accepted]; rfl
    · simp [hrep, State.accepted]; rfl
    · simp [hrep, State.accepted]; rfl
    · simp only [reportFilled, hsess]
      rw [hu]
      rfl
  · simp [hrep]
  · simp only [reportFilled_queue, hans]

end Sys2Proof.Machine
end

