-- ==== Sys2Proof/Laws/Compositor.lean ====
section
/-! SUPPORT. The candidate list of a line: admission within both limits, and what building a line touches (R51, R56). -/

set_option Elab.async false

namespace Sys2Proof.Machine

/-- What is admitted is a prefix in priority order. -/
theorem admitted_prefix (l : List Candidate) (n t : Nat) : admitted l n t <+: l := by
  induction l generalizing n t with
  | nil => exact List.prefix_rfl
  | cons c l ih =>
    unfold admitted
    split
    · exact List.cons_prefix_cons.mpr ⟨rfl, ih _ _⟩
    · exact List.nil_prefix

/-- Admission stays within 12 candidates and a cost of 2048. -/
theorem admitted_within (l : List Candidate) (n t : Nat) (hn : n ≤ 12) (ht : t ≤ 2048) :
    n + (admitted l n t).length ≤ 12 ∧ t + ((admitted l n t).map Candidate.cost).sum ≤ 2048 := by
  induction l generalizing n t with
  | nil => simp [admitted]; omega
  | cons c l ih =>
    unfold admitted
    split
    · next h =>
      have := ih (n + 1) (t + c.cost) (by simp [Config.candidateLimit] at h; omega) (by simp [Config.fetchBudget] at h; omega)
      simp; omega
    · simp; omega

/-- The first record left out fails the count or the budget. -/
theorem admitted_stops (l : List Candidate) (n t : Nat) (hn : n ≤ 12) {c : Candidate}
    (h : l[(admitted l n t).length]? = some c) :
    n + (admitted l n t).length = 12 ∨ 2048 < t + ((admitted l n t).map Candidate.cost).sum + c.cost := by
  induction l generalizing n t with
  | nil => simp at h
  | cons d l ih =>
    unfold admitted at h ⊢
    split at h
    · next hd =>
      rw [if_pos hd]
      have := ih (n + 1) (t + d.cost) (by simp [Config.candidateLimit] at hd; omega) (by simpa using h)
      simp; omega
    · next hd =>
      rw [if_neg hd]
      simp at h ⊢
      subst h
      simp [Config.candidateLimit, Config.fetchBudget] at hd
      omega

/-- Building a line leaves the flag, and with the flag clear the whole compositor. -/
theorem buildLine_frame (s : State) : (buildLine s).compositor.compositing = s.compositor.compositing ∧
    (s.compositor.compositing = false → (buildLine s).compositor = s.compositor) ∧
    ((buildLine s).compositor.candidates = s.compositor.candidates ∨
      ((buildLine s).compositor.candidates.length ≤ 12 ∧ ((buildLine s).compositor.candidates.map Candidate.cost).sum ≤ 2048)) := by
  unfold buildLine
  split
  · next g h1 h2 =>
    dsimp only
    refine ⟨h1 ▸ rfl, by simp [h1], .inr ?_⟩
    have := admitted_within (eligibleList s g.w (s.tracker.linesBegun - 1)) 0 0 (by omega) (by omega)
    simpa using this
  · exact ⟨rfl, fun _ => rfl, .inl rfl⟩

end Sys2Proof.Machine
end

