-- ==== Sys2Proof/Laws/Tracker.lean ====
section
/-! SUPPORT. What a symbol does to the tracker, as a function of the tracker alone, and to the compositor when it is a fault; and what
the symbol commands leave of the tracker behind the later stages. -/

set_option Elab.async false

namespace Sys2Proof.Machine

/-- The tracker after a symbol other than FRAME_START (R100, R103 to R110). -/
def Tracker.after (x : FwdSymbol) (t : Tracker) : Tracker :=
  match t.rasterState with
  | .noSignal => t.move x
  | .disrupted => t.move x
  | .acquiring =>
    if x = .frameEnd ∧ t.inFrame then ((t.measure x).move x).endMeasured else (t.measure x).move x
  | .locked =>
    match t.faultAt x with
    | none => t.move x
    | some k => (t.recordFault k).move x

/-- The tracker after a FRAME_START (R102, R110, R111). -/
def Tracker.afterFrameStart (t : Tracker) : Tracker :=
  match t.rasterState with
  | .noSignal => { t.beginFrame with rasterState := .acquiring, candidate := none, matchCount := 0 }
  | .acquiring => if t.inFrame then { t.beginFrame with matchCount := 0 } else t.beginFrame
  | .disrupted => t.reacquire.beginFrame
  | .locked =>
    match t.faultAt .frameStart with
    | none => t.beginFrame
    | some k => (t.recordFault k).beginFrame.reacquire

theorem latchSummary_compositor (b : Bool) (s : State) :
    (latchSummary b s).compositor = ⟨false, [], WorkingSummary.zero,
      ⟨s.compositor.working.linesTruncated, s.compositor.working.firstLine, s.compositor.working.recordsOmitted,
        s.tracker.frameCounter, b⟩⟩ := by
  unfold latchSummary
  dsimp only
  split <;> rfl

theorem takeFault_tracker (k : FaultKind) (s : State) : (takeFault k s).tracker = s.tracker.recordFault k := by
  simp [takeFault]

/-- A fault told to the compositor: the flag is clear after it, and a frame composited is latched as cut short (R47, R66). -/
theorem takeFault_compositor (k : FaultKind) (s : State) :
    (takeFault k s).compositor = if s.compositor.compositing then
      ⟨false, [], WorkingSummary.zero,
        ⟨s.compositor.working.linesTruncated, s.compositor.working.firstLine, s.compositor.working.recordsOmitted,
          s.tracker.frameCounter, true⟩⟩
      else s.compositor := by
  unfold takeFault stopCompositing
  split
  · exact latchSummary_compositor true _
  · rfl

theorem trackSymbol_tracker (x : FwdSymbol) (s : State) : (trackSymbol x s).tracker = s.tracker.after x := by
  unfold trackSymbol Tracker.after
  cases s.tracker.rasterState with
  | noSignal => rfl
  | disrupted => rfl
  | acquiring =>
    dsimp only
    split
    · split <;> rfl
    · rfl
  | locked =>
    dsimp only
    cases s.tracker.faultAt x with
    | none => rfl
    | some k => simp [takeFault_tracker]

/-- The compositor is touched by a fault in LOCKED alone. -/
theorem trackSymbol_compositor (x : FwdSymbol) (s : State) :
    (trackSymbol x s).compositor =
      if s.tracker.rasterState = .locked ∧ (s.tracker.faultAt x).isSome = true ∧ s.compositor.compositing = true then
        ⟨false, [], WorkingSummary.zero,
          ⟨s.compositor.working.linesTruncated, s.compositor.working.firstLine, s.compositor.working.recordsOmitted,
            s.tracker.frameCounter, true⟩⟩
      else s.compositor := by
  unfold trackSymbol
  cases h : s.tracker.rasterState with
  | noSignal => simp
  | disrupted => simp
  | acquiring =>
    dsimp only
    split
    · split <;> simp
    · simp
  | locked =>
    dsimp only
    cases s.tracker.faultAt x with
    | none => simp
    | some k =>
      simp only [raiseRaster_compositor, takeFault_compositor]
      by_cases hc : s.compositor.compositing = true <;> simp [hc]

theorem trackFrameStart_tracker (s : State) : (trackFrameStart s).tracker = s.tracker.afterFrameStart := by
  unfold trackFrameStart Tracker.afterFrameStart
  cases s.tracker.rasterState with
  | noSignal => rfl
  | disrupted => rfl
  | acquiring => rfl
  | locked =>
    dsimp only
    cases s.tracker.faultAt .frameStart with
    | none => rfl
    | some k => simp [takeFault_tracker]

theorem trackFrameStart_compositor (s : State) :
    (trackFrameStart s).compositor =
      if s.tracker.rasterState = .locked ∧ s.tracker.inFrame = true ∧ s.compositor.compositing = true then
        ⟨false, [], WorkingSummary.zero,
          ⟨s.compositor.working.linesTruncated, s.compositor.working.firstLine, s.compositor.working.recordsOmitted,
            s.tracker.frameCounter, true⟩⟩
      else s.compositor := by
  unfold trackFrameStart
  cases h : s.tracker.rasterState with
  | noSignal => simp
  | disrupted => simp
  | acquiring => simp
  | locked =>
    dsimp only
    by_cases hf : s.tracker.inFrame = true
    · simp only [Tracker.faultAt, hf, if_true, raiseRaster_compositor, takeFault_compositor]
      by_cases hc : s.compositor.compositing = true <;> simp [hc]
    · simp [Tracker.faultAt, hf]

/-! ### The tracker behind the later stages of a symbol command -/

section
variable (s : State)

@[simp] theorem takeFrameStart_tracker : (takeFrameStart s).tracker = s.tracker.afterFrameStart := by
  simp [takeFrameStart, trackFrameStart_tracker]
@[simp] theorem takeLineStart_tracker : (takeLineStart s).tracker = s.tracker.after .lineStart := by
  simp [takeLineStart, trackSymbol_tracker]
@[simp] theorem takePixel_tracker (c : Colour) : (takePixel c s).tracker = s.tracker.after (.pixel c) := by
  simp [takePixel, trackSymbol_tracker]
@[simp] theorem takeLineEnd_tracker : (takeLineEnd s).tracker = s.tracker.after .lineEnd := by
  simp [takeLineEnd, trackSymbol_tracker]
@[simp] theorem takeFrameEnd_tracker : (takeFrameEnd s).tracker = s.tracker.after .frameEnd := by
  simp [takeFrameEnd, trackSymbol_tracker]
@[simp] theorem onSymbol_receiving (f : State → State) (h : s.receiving = true) : onSymbol f s = outputSlot (f s) := if_pos h
@[simp] theorem onSymbol_deaf (f : State → State) (h : s.receiving = false) : onSymbol f s = s := by simp [onSymbol, h]

end

/-! ### The parts of a symbol's effect -/

theorem satSucc_stop (n : Nat) (h : n ≤ 4097) : satSucc Config.countStop n = min 4097 (n + 1) := by
  unfold satSucc Config.countStop; split <;> omega

/-- Moving the position leaves all but the position (R100). -/
theorem move_frame (t : Tracker) (x : FwdSymbol) (hx : x ≠ .frameStart) :
    (t.move x).rasterState = t.rasterState ∧ (t.move x).candidate = t.candidate ∧ (t.move x).matchCount = t.matchCount ∧
    (t.move x).locked = t.locked ∧ (t.move x).lengthMark = t.lengthMark ∧ (t.move x).irregular = t.irregular ∧
    (t.move x).frameCounter = t.frameCounter ∧ (t.move x).fault = t.fault := by
  cases x <;> simp only [ne_eq, not_true_eq_false] at hx <;> unfold Tracker.move <;> dsimp only <;>
    first
      | exact ⟨rfl, rfl, rfl, rfl, rfl, rfl, rfl, rfl⟩
      | (split <;> exact ⟨rfl, rfl, rfl, rfl, rfl, rfl, rfl, rfl⟩)

/-- Measuring leaves all but the two marks and the match count, which stays or becomes 0 (R104). -/
theorem measure_frame (t : Tracker) (x : FwdSymbol) :
    (t.measure x).rasterState = t.rasterState ∧ (t.measure x).candidate = t.candidate ∧
    (t.measure x).locked = t.locked ∧ (t.measure x).inFrame = t.inFrame ∧ (t.measure x).inLine = t.inLine ∧
    (t.measure x).linesBegun = t.linesBegun ∧ (t.measure x).pixelsInLine = t.pixelsInLine ∧
    (t.measure x).frameCounter = t.frameCounter ∧ (t.measure x).fault = t.fault ∧
    ((t.measure x).matchCount = t.matchCount ∨ (t.measure x).matchCount = 0) := by
  unfold Tracker.measure
  split
  · split
    · simp
    · split
      · simp
      · split <;> simp
  · split <;> simp

/-- In every raster state the position is that of R100, and the frame counter stands. -/
theorem after_position (t : Tracker) (x : FwdSymbol) (hx : x ≠ .frameStart) :
    (t.after x).inFrame = (t.move x).inFrame ∧ (t.after x).inLine = (t.move x).inLine ∧
    (t.after x).linesBegun = (t.move x).linesBegun ∧ (t.after x).pixelsInLine = (t.move x).pixelsInLine ∧
    (t.after x).frameCounter = t.frameCounter := by
  have mv : ∀ u : Tracker, u.inFrame = t.inFrame → u.inLine = t.inLine → u.linesBegun = t.linesBegun →
      u.pixelsInLine = t.pixelsInLine → u.frameCounter = t.frameCounter →
      (u.move x).inFrame = (t.move x).inFrame ∧ (u.move x).inLine = (t.move x).inLine ∧
      (u.move x).linesBegun = (t.move x).linesBegun ∧ (u.move x).pixelsInLine = (t.move x).pixelsInLine ∧
      (u.move x).frameCounter = t.frameCounter := by
    intro u h1 h2 h3 h4 h5
    cases x <;> simp [Tracker.move, h1, h2, h3, h4, h5] at hx ⊢ <;> split <;> simp [h1, h2, h3, h4, h5]
  have m := measure_frame t x
  have mm := mv (t.measure x) m.2.2.2.1 m.2.2.2.2.1 m.2.2.2.2.2.1 m.2.2.2.2.2.2.1 m.2.2.2.2.2.2.2.1
  unfold Tracker.after
  split
  · exact mv t rfl rfl rfl rfl rfl
  · exact mv t rfl rfl rfl rfl rfl
  · split
    · unfold Tracker.endMeasured
      split
      · dsimp only
        split
        · split <;> exact mm
        · exact mm
      · exact mm
    · exact mm
  · split
    · exact mv t rfl rfl rfl rfl rfl
    · exact mv _ rfl rfl rfl rfl rfl

end Sys2Proof.Machine
end

