-- ==== Sys2Proof/Laws/Front.lean ====
section
/-! SUPPORT. What any command leaves of the tracker. -/

set_option Elab.async false

namespace Sys2Proof.Machine

theorem decidePacket_front (s : State) : (decidePacket s).tracker = s.tracker ∧ (decidePacket s).compositor = s.compositor ∧
    (decidePacket s).unitAddress = s.unitAddress := by
  unfold decidePacket
  dsimp only
  split
  · exact ⟨rfl, rfl, rfl⟩
  · exact ⟨rfl, rfl, rfl⟩
  · split
    · have h := handOver_front
      exact ⟨(h _ _ _ _ _).tracker, (h _ _ _ _ _).compositor, (h _ _ _ _ _).unitAddress⟩
    · split
      · have h := handOver_front
        exact ⟨(h _ _ _ _ _).tracker, (h _ _ _ _ _).compositor, (h _ _ _ _ _).unitAddress⟩
      · exact ⟨rfl, rfl, rfl⟩

@[simp] theorem filterPacketEnd_tracker (s : State) : (filterPacketEnd s).tracker = s.tracker := by
  unfold filterPacketEnd
  split
  · rfl
  · exact (decidePacket_front s).1
  · rfl
  · rfl

@[simp] theorem filterPacketEnd_compositor (s : State) : (filterPacketEnd s).compositor = s.compositor := by
  unfold filterPacketEnd
  split
  · rfl
  · exact (decidePacket_front s).2.1
  · rfl
  · rfl

/-- The tracker after any command. -/
theorem exec_tracker {c : Instr} {s t : State} (h : exec c s = .next t) :
    (c = .frameStart ∧ s.receiving = true ∧ t.tracker = s.tracker.afterFrameStart) ∨
    (∃ x, symbolOf c = some x ∧ s.receiving = true ∧ t.tracker = s.tracker.after x) ∨
    (c = .forwardLinkDown ∧ s.receiving = true ∧ t.tracker = s.tracker.loseSignal) ∨
    (isHardReset c = true ∧ t.tracker = Tracker.reset) ∨
    t.tracker = s.tracker := by
  have sym : ∀ f : State → State, (∃ x, symbolOf c = some x ∧ ∀ u, (f u).tracker = u.tracker.after x) →
      exec c s = .next (onSymbol f s) → (∃ x, symbolOf c = some x ∧ s.receiving = true ∧ t.tracker = s.tracker.after x) ∨
      t.tracker = s.tracker := by
    rintro f ⟨x, h1, h2⟩ h3
    rw [h3] at h
    injection h with h
    subst h
    cases hr : s.receiving
    · exact .inr (by rw [onSymbol_deaf _ _ hr])
    · exact .inl ⟨x, h1, rfl, by rw [onSymbol_receiving _ _ hr]; simp [h2]⟩
  cases hc : carried c with
  | some x =>
    obtain ⟨how, seq, code, p⟩ := x
    rw [exec_host hc] at h
    injection h with h
    subst h
    right; right; right; right
    unfold takeCommand
    split
    · exact (handOver_front _ _ _ _ _).tracker
    · rfl
  | none =>
    have quiet : ∀ u : State, Host.Outcome.next u = (Host.Outcome.next t : Result) → u.tracker = s.tracker →
        t.tracker = s.tracker := by
      intro u hu h1
      injection hu with hu
      exact hu ▸ h1
    have tail : ∀ {A B C D : Prop}, A ∨ D → B ∨ A ∨ C ∨ (isHardReset c = true ∧ t.tracker = Tracker.reset) ∨ D := by
      intro A B C D h
      rcases h with h | h
      · exact .inr (.inl h)
      · exact .inr (.inr (.inr (.inr h)))
    cases c <;> simp only [carried, reduceCtorEq] at hc
    case frameStart =>
      injection h with h
      subst h
      cases hr : s.receiving
      · exact .inr (.inr (.inr (.inr (by rw [onSymbol_deaf _ _ hr]))))
      · exact .inl ⟨rfl, rfl, by rw [onSymbol_receiving _ _ hr]; simp⟩
    case lineStart => exact tail (sym takeLineStart ⟨_, rfl, fun u => by simp⟩ rfl)
    case pixel c0 c1 c2 => exact tail (sym (takePixel ⟨c0, c1, c2⟩) ⟨_, rfl, fun u => by simp⟩ rfl)
    case lineEnd => exact tail (sym takeLineEnd ⟨_, rfl, fun u => by simp⟩ rfl)
    case frameEnd => exact tail (sym takeFrameEnd ⟨_, rfl, fun u => by simp⟩ rfl)
    case packetStart => exact tail (sym _ ⟨_, rfl, fun u => by simp [trackSymbol_tracker]⟩ rfl)
    case packetByte b => exact tail (sym _ ⟨_, rfl, fun u => by simp [trackSymbol_tracker]⟩ rfl)
    case packetEnd => exact tail (sym _ ⟨_, rfl, fun u => by simp [trackSymbol_tracker]⟩ rfl)
    case idle => exact tail (sym _ ⟨_, rfl, fun u => by simp [trackSymbol_tracker]⟩ rfl)
    case forwardLinkDown =>
      injection h with h
      subst h
      cases hr : s.receiving
      · exact .inr (.inr (.inr (.inr rfl)))
      · refine .inr (.inr (.inl ⟨rfl, rfl, ?_⟩))
        simp only [if_true, loseForwardLink, beginDrain_tracker, endOpenPacket_tracker, stopCompositing_tracker]
        unfold trackLinkDown
        dsimp only
        split <;> simp
    case resetRelease straps => injection h with h; subst h; exact .inr (.inr (.inr (.inl ⟨rfl, rfl⟩)))
    case powerUp straps => injection h with h; subst h; exact .inr (.inr (.inr (.inl ⟨rfl, rfl⟩)))
    case forwardLinkUp =>
      refine .inr (.inr (.inr (.inr (quiet _ h ?_))))
      split
      · unfold gainForwardLink; dsimp only; split <;> rfl
      · rfl
    case drainEnd =>
      refine .inr (.inr (.inr (.inr (quiet _ h ?_))))
      unfold endDrain
      split <;> simp
    case resetAssert =>
      refine .inr (.inr (.inr (.inr (quiet _ h ?_))))
      split <;> simp [assertReset]
    case transmissionStart => exact .inr (.inr (.inr (.inr (quiet _ h (by simp)))))
    case transmissionEnd => exact .inr (.inr (.inr (.inr (quiet _ h (by simp)))))
    case relayPacketStart => exact .inr (.inr (.inr (.inr (quiet _ h (by simp)))))
    case relayPacketByte b => exact .inr (.inr (.inr (.inr (quiet _ h (by simp)))))
    case relayPacketEnd => exact .inr (.inr (.inr (.inr (quiet _ h (by simp)))))
    all_goals
      refine .inr (.inr (.inr (.inr (quiet _ h ?_))))
      first | rfl | (split <;> rfl)

/-- A symbol command, while symbols are taken, moves the tracker as the symbol does. -/
theorem exec_symbol {c : Instr} {x : FwdSymbol} (hx : symbolOf c = some x) {s : State} (hr : s.receiving = true) :
    ∃ t, exec c s = .next t ∧ t.tracker = s.tracker.after x := by
  cases c <;> simp only [symbolOf, reduceCtorEq, Option.some.injEq] at hx
  all_goals
    subst hx
    exact ⟨_, rfl, by rw [onSymbol_receiving _ _ hr]; simp [trackSymbol_tracker]⟩

/-- The tracker's part of a symbol stops compositing, or finds a good symbol of a composited frame (R47, R107). -/
theorem trackSymbol_compositing {s : State} (hl : s.CompositorLegal) (x : FwdSymbol) :
    ((trackSymbol x s).compositor.compositing = false ∧ (trackSymbol x s).compositor.candidates = []) ∨
    ((trackSymbol x s).compositor = s.compositor ∧ s.compositor.compositing = true ∧ s.tracker.rasterState = .locked ∧
      s.tracker.faultAt x = none ∧ (trackSymbol x s).tracker = s.tracker.move x) := by
  rw [trackSymbol_compositor, trackSymbol_tracker]
  cases hc : s.compositor.compositing
  · left; simp [hc, hl.clear hc]
  · have := hl.flag hc
    cases hf : s.tracker.faultAt x with
    | none => right; simp [this.1, hf, Tracker.after]
    | some k => left; simp [this.1]

end Sys2Proof.Machine
end

