-- ==== Sys2Proof/Laws/Memory.lean ====
section
/-! SUPPORT. The bytes of the image store: every operation keeps the canonical form, a byte written reads back, and every other byte
reads as before. -/

set_option Elab.async false

namespace Sys2Proof.Machine

/-- The canonical form from a higher bound is one from a lower bound. -/
theorem wfFrom_mono {lo lo' : Nat} (h : lo' ≤ lo) {m : Memory} (hw : Memory.wfFrom lo m = true) : Memory.wfFrom lo' m = true := by
  cases m with
  | nil => rfl
  | cons c m =>
    simp only [Memory.wfFrom, Bool.and_eq_true, decide_eq_true_eq] at hw ⊢
    exact ⟨⟨⟨by omega, hw.1.1.2⟩, hw.1.2⟩, hw.2⟩

/-- A write inside the store keeps the canonical form. -/
theorem wfFrom_write {lo : Nat} {m : Memory} (h : Memory.wfFrom lo m = true) {k : Nat} (hlo : lo ≤ k) (hk : k < storeBytes)
    (v : Byte) : Memory.wfFrom lo (Memory.write m k v) = true := by
  induction m generalizing lo with
  | nil =>
    unfold Memory.write
    split
    · rfl
    · next hv => simpa [Memory.wfFrom, hlo, hk] using hv
  | cons c m ih =>
    obtain ⟨a, b⟩ := c
    simp only [Memory.wfFrom, Bool.and_eq_true, decide_eq_true_eq] at h
    unfold Memory.write
    split
    · split
      · simp [Memory.wfFrom]; simp at h; omega
      · simp [Memory.wfFrom]; simp at h; refine ⟨⟨⟨hlo, hk⟩, ‹_›⟩, ⟨⟨by omega, h.1.1.2⟩, h.1.2⟩, h.2⟩
    · split
      · split
        · exact wfFrom_mono (by omega) h.2
        · subst k; simp [Memory.wfFrom]; simp at h; exact ⟨⟨⟨hlo, hk⟩, ‹_›⟩, h.2⟩
      · simp only [Memory.wfFrom, Bool.and_eq_true, decide_eq_true_eq]
        exact ⟨h.1, ih h.2 (by omega)⟩

/-- An image byte lies inside the store. -/
theorem imageAddress_lt {pm : List PageNo} {n a : Nat} (h : imageAddress pm n = some a) : a < storeBytes := by
  unfold imageAddress at h
  simp only [Option.map_eq_some_iff] at h
  obtain ⟨p, -, rfl⟩ := h
  have := p.2
  have : n % Config.pageBytes < 128 := Nat.mod_lt _ (by decide)
  simp only [storeBytes, Config.pageBytes, Config.pageCount] at *
  omega

/-- An image byte lies in one of the image's pages. -/
theorem imageAddress_page {pm : List PageNo} {n a : Nat} (h : imageAddress pm n = some a) :
    ∃ p ∈ pm, a / Config.pageBytes = p.val := by
  unfold imageAddress at h
  simp only [Option.map_eq_some_iff] at h
  obtain ⟨p, hp, rfl⟩ := h
  refine ⟨p, List.mem_of_getElem? hp, ?_⟩
  have : n % Config.pageBytes < 128 := Nat.mod_lt _ (by decide)
  simp only [Config.pageBytes] at *
  omega

/-- Writing image bytes keeps the canonical form. -/
theorem wf_writeImageBytes {m : Memory} (h : Memory.wf m = true) (pm : List PageNo) (n : Nat) (bs : List Byte) :
    Memory.wf (writeImageBytes m pm n bs) = true := by
  induction bs generalizing m n with
  | nil => exact h
  | cons b bs ih =>
    unfold writeImageBytes
    apply ih
    cases ha : imageAddress pm n with
    | none => exact h
    | some a => exact wfFrom_write h (Nat.zero_le _) (imageAddress_lt ha) b

/-- Below its first address the canonical form reads 0. -/
theorem wfFrom_read {m : Memory} {lo k : Nat} (h : Memory.wfFrom lo m = true) (hk : k < lo) : Memory.read m k = 0 := by
  induction m generalizing lo with
  | nil => rfl
  | cons c m ih =>
    obtain ⟨a, b⟩ := c
    simp only [Memory.wfFrom, Bool.and_eq_true, decide_eq_true_eq] at h
    have : k ≠ a := by omega
    simp only [Memory.read, if_neg this]
    exact ih h.2 (by omega)

/-- A write leaves every other address as it reads. -/
theorem read_write_ne (m : Memory) {k j : Nat} (h : j ≠ k) (v : Byte) : Memory.read (Memory.write m k v) j = Memory.read m j := by
  induction m with
  | nil => unfold Memory.write; split <;> simp [Memory.read, h]
  | cons c m ih =>
    obtain ⟨a, b⟩ := c
    unfold Memory.write
    split
    · split
      · rfl
      · simp [Memory.read, h]
    · split
      · subst k; split <;> simp [Memory.read, h]
      · simp only [Memory.read, ih]

/-- An address written reads the byte written. -/
theorem read_write_same {m : Memory} {lo : Nat} (hw : Memory.wfFrom lo m = true) (k : Nat) (v : Byte) :
    Memory.read (Memory.write m k v) k = v := by
  induction m generalizing lo with
  | nil => unfold Memory.write; split <;> simp [Memory.read, *]
  | cons c m ih =>
    obtain ⟨a, b⟩ := c
    simp only [Memory.wfFrom, Bool.and_eq_true, decide_eq_true_eq] at hw
    unfold Memory.write
    split
    · split
      · next h1 h2 =>
        rw [h2]
        have : k ≠ a := by omega
        simp only [Memory.read, if_neg this]
        exact wfFrom_read hw.2 (by omega)
      · simp [Memory.read]
    · split
      · next h1 h2 =>
        subst h2
        split
        · next h3 => rw [h3]; exact wfFrom_read hw.2 (by omega)
        · simp [Memory.read]
      · next h1 h2 => simp only [Memory.read, if_neg h2]; exact ih hw.2

/-- Writing image bytes leaves every address that is none of theirs as it reads. -/
theorem read_writeImageBytes_other (m : Memory) (pm : List PageNo) (n a : Nat) (bs : List Byte)
    (h : ∀ k, k < bs.length → imageAddress pm (n + k) ≠ some a) :
    Memory.read (writeImageBytes m pm n bs) a = Memory.read m a := by
  induction bs generalizing m n with
  | nil => rfl
  | cons b bs ih =>
    unfold writeImageBytes
    rw [ih]
    · have h0 := h 0 (by simp)
      rw [Nat.add_zero] at h0
      cases ha : imageAddress pm n with
      | none => rfl
      | some c =>
        exact read_write_ne m (fun e => h0 (by rw [ha, e])) b
    · intro k hk
      have := h (k + 1) (by simpa using hk)
      rwa [show n + (k + 1) = n + 1 + k by omega] at this

/-- Two bytes of one image lie at different addresses when its pages are different (R70). -/
theorem imageAddress_inj {pm : List PageNo} (hp : pm.Nodup) {n k a : Nat} (h1 : imageAddress pm n = some a)
    (h2 : imageAddress pm k = some a) : n = k := by
  unfold imageAddress at h1 h2
  simp only [Option.map_eq_some_iff] at h1 h2
  obtain ⟨p, hp1, rfl⟩ := h1
  obtain ⟨q, hq1, h⟩ := h2
  have m1 : n % Config.pageBytes < 128 := Nat.mod_lt _ (by decide)
  have m2 : k % Config.pageBytes < 128 := Nat.mod_lt _ (by decide)
  simp only [Config.pageBytes] at *
  have e : p = q := Fin.ext (by omega)
  subst e
  have e2 := (List.getElem?_inj (List.getElem?_eq_some_iff.1 hp1).1 hp).1 (hp1.trans hq1.symm)
  omega

/-- The bytes written to an image whose pages are different read back, each at its number (R77). -/
theorem read_writeImageBytes {m : Memory} (hw : Memory.wf m = true) {pm : List PageNo} (hp : pm.Nodup) {bs : List Byte}
    {n k a : Nat} {v : Byte} (hv : bs[k]? = some v) (ha : imageAddress pm (n + k) = some a) :
    Memory.read (writeImageBytes m pm n bs) a = v := by
  induction bs generalizing m n k with
  | nil => simp at hv
  | cons b bs ih =>
    unfold writeImageBytes
    cases k with
    | zero =>
      simp only [List.getElem?_cons_zero, Option.some.injEq] at hv
      subst hv
      rw [Nat.add_zero] at ha
      rw [read_writeImageBytes_other]
      · rw [ha]
        exact read_write_same hw a b
      · intro j _ h
        have := imageAddress_inj hp ha h
        omega
    | succ k =>
      refine ih ?_ (by simpa using hv) (by rwa [show n + 1 + k = n + (k + 1) by omega])
      cases hn : imageAddress pm n with
      | none => exact hw
      | some c => exact wfFrom_write hw (Nat.zero_le _) (imageAddress_lt hn) b

/-- The store of hard reset is in canonical form and reads 0 everywhere (R67, R85). -/
theorem reset_memory : Memory.wf State.reset.images.memory = true ∧ ∀ a, Memory.read State.reset.images.memory a = 0 :=
  ⟨rfl, fun _ => rfl⟩

end Sys2Proof.Machine
end

