-- ==== Sys2Proof/Laws/Palettes.lean ====
section
/-! SUPPORT. The pending palette write list: what taking a write, or the run of writes one WRITE_PALETTE carries, makes of it (R91). -/

set_option Elab.async false

namespace Sys2Proof.Machine

/-- A byte's value is below 256. -/
theorem byteAt_lt (p : List Byte) (i : Nat) : byteAt p i < 256 := (p.getD i 0).isLt

/-- The range check of a colour says what its law says. -/
theorem colourInRange_iff (c : Colour) : colourInRange c = true ↔ c.InRange := by
  simp [colourInRange, Colour.InRange, and_assoc]

/-- A pair is pending when a write of the list is for it. -/
theorem isPending_iff (l : List PaletteWrite) (w : PaletteWrite) :
    isPending l w = true ↔ ∃ v ∈ l, v.palette = w.palette ∧ v.index = w.index := by
  simp [isPending, PaletteWrite.isFor]

/-- The pairs of the list after one write is taken in: a pair pending keeps its place, a new one joins the tail (R91). -/
theorem keys_putWrite (l : List PaletteWrite) (w : PaletteWrite) :
    (putWrite l w).map (fun v => (v.palette, v.index)) =
      if isPending l w then l.map (fun v => (v.palette, v.index)) else l.map (fun v => (v.palette, v.index)) ++ [(w.palette, w.index)] := by
  unfold putWrite
  split
  · rw [List.map_map]
    apply List.map_congr_left
    intro v _
    simp only [Function.comp]
    split
    · next h => simp [PaletteWrite.isFor] at h; simp [h]
    · rfl
  · simp

/-- A write of the list after one is taken in: that one, or one of another pair that stood. -/
theorem mem_putWrite {l : List PaletteWrite} {w v : PaletteWrite} (h : v ∈ putWrite l w) :
    v = w ∨ (v ∈ l ∧ ¬(v.palette = w.palette ∧ v.index = w.index)) := by
  unfold putWrite at h
  split at h
  · simp only [List.mem_map] at h
    obtain ⟨x, hx, h⟩ := h
    split at h
    · exact .inl h.symm
    · next hn => subst h; right; exact ⟨hx, by simpa [PaletteWrite.isFor] using hn⟩
  · next hn =>
    simp only [List.mem_append, List.mem_singleton] at h
    rcases h with h | h
    · right
      refine ⟨h, fun hc => hn ((isPending_iff _ _).2 ⟨v, h, hc⟩)⟩
    · exact .inl h

/-- At most one write for a pair: no pair twice. -/
theorem once_iff (l : List PaletteWrite) :
    (l.Pairwise fun a b => ¬(a.palette = b.palette ∧ a.index = b.index)) ↔ (l.map fun v => (v.palette, v.index)).Nodup := by
  rw [List.Nodup, List.pairwise_map]
  simp

/-- Taking a write in leaves no pair twice. -/
theorem nodup_putWrite {l : List PaletteWrite} (w : PaletteWrite) (h : (l.map fun v => (v.palette, v.index)).Nodup) :
    ((putWrite l w).map fun v => (v.palette, v.index)).Nodup := by
  rw [keys_putWrite]
  split
  · exact h
  · next hn =>
    rw [List.nodup_append]
    refine ⟨h, by simp, ?_⟩
    intro a ha b hb
    simp only [List.mem_singleton] at hb
    subst hb
    rintro rfl
    simp only [List.mem_map] at ha
    obtain ⟨v, hv, h2⟩ := ha
    simp only [Prod.mk.injEq] at h2
    exact hn ((isPending_iff _ _).2 ⟨v, hv, h2⟩)

/-- After a write is taken in, its pair is pending with those that were. -/
theorem isPending_putWrite (l : List PaletteWrite) (w v : PaletteWrite) :
    isPending (putWrite l w) v = (isPending l v || (w.palette == v.palette && w.index == v.index)) := by
  have e : ∀ l : List PaletteWrite, isPending l v = true ↔ (v.palette, v.index) ∈ l.map fun v => (v.palette, v.index) := by
    intro l; rw [isPending_iff]; simp [eq_comm]
  rw [Bool.eq_iff_iff, e, keys_putWrite, Bool.or_eq_true, e]
  split
  · next h =>
    constructor
    · exact Or.inl
    · rintro (h2 | h2)
      · exact h2
      · simp only [Bool.and_eq_true, beq_iff_eq] at h2
        rw [isPending_iff] at h
        obtain ⟨x, hx, h3⟩ := h
        simp only [List.mem_map]
        exact ⟨x, hx, by rw [h3.1, h3.2, h2.1, h2.2]⟩
  · simp only [List.mem_append, List.mem_singleton, Prod.mk.injEq, Bool.and_eq_true, beq_iff_eq]
    constructor
    · rintro (h2 | h2); exacts [.inl h2, .inr ⟨h2.1.symm, h2.2.symm⟩]
    · rintro (h2 | h2); exacts [.inl h2, .inr ⟨h2.1.symm, h2.2.symm⟩]

/-- The pairs of the list after a run of writes to different pairs (R91). -/
theorem keys_foldl (ws l : List PaletteWrite) (h : (ws.map fun v => (v.palette, v.index)).Nodup) :
    (ws.foldl putWrite l).map (fun v => (v.palette, v.index)) =
      l.map (fun v => (v.palette, v.index)) ++ (ws.filter fun w => !isPending l w).map (fun v => (v.palette, v.index)) := by
  induction ws generalizing l with
  | nil => simp
  | cons w ws ih =>
    simp only [List.map_cons, List.nodup_cons] at h
    rw [List.foldl_cons, ih _ h.2, keys_putWrite]
    have hf : (ws.filter fun v => !isPending (putWrite l w) v) = ws.filter fun v => !isPending l v := by
      apply List.filter_congr
      intro v hv
      rw [isPending_putWrite]
      have : (w.palette == v.palette && w.index == v.index) = false := by
        rw [← Bool.not_eq_true, Bool.and_eq_true, beq_iff_eq, beq_iff_eq]
        intro hc
        exact h.1 (List.mem_map.2 ⟨v, hv, by rw [hc.1, hc.2]⟩)
      simp [this]
    rw [hf, List.filter_cons]
    cases hp : isPending l w <;> simp

/-- A run of writes to different pairs lengthens the list by the pairs that were not pending. -/
theorem length_foldl (ws l : List PaletteWrite) (h : (ws.map fun v => (v.palette, v.index)).Nodup) :
    (ws.foldl putWrite l).length = l.length + addedCount l ws := by
  have := congrArg List.length (keys_foldl ws l h)
  simpa [addedCount, List.countP_eq_length_filter] using this

/-- A write of the list after a run: one of the run's, or one that stood and whose pair the run does not write. -/
theorem mem_foldl {ws l : List PaletteWrite} {v : PaletteWrite} (h : v ∈ ws.foldl putWrite l) :
    v ∈ ws ∨ (v ∈ l ∧ ∀ w ∈ ws, ¬(v.palette = w.palette ∧ v.index = w.index)) := by
  induction ws generalizing l with
  | nil => exact .inr ⟨h, by simp⟩
  | cons w ws ih =>
    rcases ih h with h1 | ⟨h1, h2⟩
    · exact .inl (by simp [h1])
    · rcases mem_putWrite h1 with rfl | ⟨h3, h4⟩
      · exact .inl (by simp)
      · refine .inr ⟨h3, ?_⟩
        intro x hx
        rcases List.mem_cons.1 hx with rfl | hx
        · exact h4
        · exact h2 x hx

/-- The writes one WRITE_PALETTE carries are to different pairs. -/
theorem paletteWrites_nodup (p : List Byte) : ((paletteWrites p).map fun v => (v.palette, v.index)).Nodup := by
  unfold paletteWrites
  rw [List.map_map]
  apply List.Nodup.map _ List.nodup_range
  intro a b h
  simp at h
  exact h

/-- The writes of a WRITE_PALETTE in range are in range. -/
theorem paletteWrites_range {p : List Byte} (h : paletteWriteInRange p = true) {w : PaletteWrite} (hw : w ∈ paletteWrites p) :
    w.palette < 8 ∧ w.index < 256 ∧ w.entry.InRange := by
  unfold paletteWriteInRange at h
  simp only [Bool.and_eq_true, decide_eq_true_eq, List.all_eq_true, List.mem_range] at h
  simp only [paletteWrites, List.mem_map, List.mem_range] at hw
  obtain ⟨k, hk, rfl⟩ := hw
  have := h.2 k hk
  exact ⟨h.1.1, by simp only; omega, (colourInRange_iff _).1 this.1, this.2⟩

end Sys2Proof.Machine
end

