-- ==== Sys2Proof/Laws/PerInstr.lean ====
section
/-! SUPPORT. Per-instruction lemmas: the family CommandRoundTrip says that the code and payload a well-formed host command
carries spell that command again. -/

set_option Elab.async false

namespace Sys2Proof.Laws.CommandRoundTrip

/-- A well-formed host command is the command that what it carries spells. -/
def Statement (i : Instr) : Prop :=
  ∀ h q c p, carried i = some (h, q, c, p) → wellFormed i = true → commandOf h q c p = i

theorem frameStart : Statement (.frameStart) := by
  intro h q c p hc; simp [carried] at hc

theorem lineStart : Statement (.lineStart) := by
  intro h q c p hc; simp [carried] at hc

theorem pixel (c0 c1 c2 : Nat) : Statement (.pixel c0 c1 c2) := by
  intro h q c p hc; simp [carried] at hc

theorem lineEnd : Statement (.lineEnd) := by
  intro h q c p hc; simp [carried] at hc

theorem frameEnd : Statement (.frameEnd) := by
  intro h q c p hc; simp [carried] at hc

theorem packetStart : Statement (.packetStart) := by
  intro h q c p hc; simp [carried] at hc

theorem packetByte (b : Byte) : Statement (.packetByte b) := by
  intro h q c p hc; simp [carried] at hc

theorem packetEnd : Statement (.packetEnd) := by
  intro h q c p hc; simp [carried] at hc

theorem idle : Statement (.idle) := by
  intro h q c p hc; simp [carried] at hc

theorem forwardLinkDown : Statement (.forwardLinkDown) := by
  intro h q c p hc; simp [carried] at hc

theorem forwardLinkUp : Statement (.forwardLinkUp) := by
  intro h q c p hc; simp [carried] at hc

theorem drainEnd : Statement (.drainEnd) := by
  intro h q c p hc; simp [carried] at hc

theorem resetAssert : Statement (.resetAssert) := by
  intro h q c p hc; simp [carried] at hc

theorem resetRelease (straps : BitVec 4) : Statement (.resetRelease straps) := by
  intro h q c p hc; simp [carried] at hc

theorem powerUp (straps : BitVec 4) : Statement (.powerUp straps) := by
  intro h q c p hc; simp [carried] at hc

theorem hello (how : Addressing) (seq : Byte) (payload : List Byte) : Statement (.hello how seq payload) := by
  intro h q c p hc _; simp only [carried, Option.some.injEq, Prod.mk.injEq] at hc
  obtain ⟨rfl, rfl, rfl, rfl⟩ := hc; rfl

theorem status (how : Addressing) (seq : Byte) (payload : List Byte) : Statement (.status how seq payload) := by
  intro h q c p hc _; simp only [carried, Option.some.injEq, Prod.mk.injEq] at hc
  obtain ⟨rfl, rfl, rfl, rfl⟩ := hc; rfl

theorem setEvents (how : Addressing) (seq : Byte) (payload : List Byte) : Statement (.setEvents how seq payload) := by
  intro h q c p hc _; simp only [carried, Option.some.injEq, Prod.mk.injEq] at hc
  obtain ⟨rfl, rfl, rfl, rfl⟩ := hc; rfl

theorem defineObject (how : Addressing) (seq : Byte) (payload : List Byte) : Statement (.defineObject how seq payload) := by
  intro h q c p hc _; simp only [carried, Option.some.injEq, Prod.mk.injEq] at hc
  obtain ⟨rfl, rfl, rfl, rfl⟩ := hc; rfl

theorem moveObject (how : Addressing) (seq : Byte) (payload : List Byte) : Statement (.moveObject how seq payload) := by
  intro h q c p hc _; simp only [carried, Option.some.injEq, Prod.mk.injEq] at hc
  obtain ⟨rfl, rfl, rfl, rfl⟩ := hc; rfl

theorem setObjectAttr (how : Addressing) (seq : Byte) (payload : List Byte) : Statement (.setObjectAttr how seq payload) := by
  intro h q c p hc _; simp only [carried, Option.some.injEq, Prod.mk.injEq] at hc
  obtain ⟨rfl, rfl, rfl, rfl⟩ := hc; rfl

theorem deleteObject (how : Addressing) (seq : Byte) (payload : List Byte) : Statement (.deleteObject how seq payload) := by
  intro h q c p hc _; simp only [carried, Option.some.injEq, Prod.mk.injEq] at hc
  obtain ⟨rfl, rfl, rfl, rfl⟩ := hc; rfl

theorem readObject (how : Addressing) (seq : Byte) (payload : List Byte) : Statement (.readObject how seq payload) := by
  intro h q c p hc _; simp only [carried, Option.some.injEq, Prod.mk.injEq] at hc
  obtain ⟨rfl, rfl, rfl, rfl⟩ := hc; rfl

theorem commitNext (how : Addressing) (seq : Byte) (rest : List Byte) : Statement (.commitNext how seq rest) := by
  intro h q c p hc _; simp only [carried, Option.some.injEq, Prod.mk.injEq] at hc
  obtain ⟨rfl, rfl, rfl, rfl⟩ := hc; rfl

theorem commitAt (how : Addressing) (seq : Byte) (rest : List Byte) : Statement (.commitAt how seq rest) := by
  intro h q c p hc _; simp only [carried, Option.some.injEq, Prod.mk.injEq] at hc
  obtain ⟨rfl, rfl, rfl, rfl⟩ := hc; rfl

theorem commitNow (how : Addressing) (seq : Byte) (rest : List Byte) : Statement (.commitNow how seq rest) := by
  intro h q c p hc _; simp only [carried, Option.some.injEq, Prod.mk.injEq] at hc
  obtain ⟨rfl, rfl, rfl, rfl⟩ := hc; rfl

theorem cancelCommit (how : Addressing) (seq : Byte) (payload : List Byte) : Statement (.cancelCommit how seq payload) := by
  intro h q c p hc _; simp only [carried, Option.some.injEq, Prod.mk.injEq] at hc
  obtain ⟨rfl, rfl, rfl, rfl⟩ := hc; rfl

theorem setMode (how : Addressing) (seq : Byte) (payload : List Byte) : Statement (.setMode how seq payload) := by
  intro h q c p hc _; simp only [carried, Option.some.injEq, Prod.mk.injEq] at hc
  obtain ⟨rfl, rfl, rfl, rfl⟩ := hc; rfl

theorem discard (how : Addressing) (seq : Byte) (payload : List Byte) : Statement (.discard how seq payload) := by
  intro h q c p hc _; simp only [carried, Option.some.injEq, Prod.mk.injEq] at hc
  obtain ⟨rfl, rfl, rfl, rfl⟩ := hc; rfl

theorem clearAll (how : Addressing) (seq : Byte) (payload : List Byte) : Statement (.clearAll how seq payload) := by
  intro h q c p hc _; simp only [carried, Option.some.injEq, Prod.mk.injEq] at hc
  obtain ⟨rfl, rfl, rfl, rfl⟩ := hc; rfl

theorem createImage (how : Addressing) (seq : Byte) (payload : List Byte) : Statement (.createImage how seq payload) := by
  intro h q c p hc _; simp only [carried, Option.some.injEq, Prod.mk.injEq] at hc
  obtain ⟨rfl, rfl, rfl, rfl⟩ := hc; rfl

theorem loadImage (how : Addressing) (seq : Byte) (payload : List Byte) : Statement (.loadImage how seq payload) := by
  intro h q c p hc _; simp only [carried, Option.some.injEq, Prod.mk.injEq] at hc
  obtain ⟨rfl, rfl, rfl, rfl⟩ := hc; rfl

theorem restartImage (how : Addressing) (seq : Byte) (payload : List Byte) : Statement (.restartImage how seq payload) := by
  intro h q c p hc _; simp only [carried, Option.some.injEq, Prod.mk.injEq] at hc
  obtain ⟨rfl, rfl, rfl, rfl⟩ := hc; rfl

theorem releaseImage (how : Addressing) (seq : Byte) (payload : List Byte) : Statement (.releaseImage how seq payload) := by
  intro h q c p hc _; simp only [carried, Option.some.injEq, Prod.mk.injEq] at hc
  obtain ⟨rfl, rfl, rfl, rfl⟩ := hc; rfl

theorem imageInfo (how : Addressing) (seq : Byte) (payload : List Byte) : Statement (.imageInfo how seq payload) := by
  intro h q c p hc _; simp only [carried, Option.some.injEq, Prod.mk.injEq] at hc
  obtain ⟨rfl, rfl, rfl, rfl⟩ := hc; rfl

theorem writePalette (how : Addressing) (seq : Byte) (payload : List Byte) : Statement (.writePalette how seq payload) := by
  intro h q c p hc _; simp only [carried, Option.some.injEq, Prod.mk.injEq] at hc
  obtain ⟨rfl, rfl, rfl, rfl⟩ := hc; rfl

theorem readPalette (how : Addressing) (seq : Byte) (payload : List Byte) : Statement (.readPalette how seq payload) := by
  intro h q c p hc _; simp only [carried, Option.some.injEq, Prod.mk.injEq] at hc
  obtain ⟨rfl, rfl, rfl, rfl⟩ := hc; rfl

theorem upstreamRoomAsserted : Statement (.upstreamRoomAsserted) := by
  intro h q c p hc; simp [carried] at hc

theorem upstreamRoomWithdrawn : Statement (.upstreamRoomWithdrawn) := by
  intro h q c p hc; simp [carried] at hc

theorem transmissionStart : Statement (.transmissionStart) := by
  intro h q c p hc; simp [carried] at hc

theorem transmissionEnd : Statement (.transmissionEnd) := by
  intro h q c p hc; simp [carried] at hc

theorem relayPacketStart : Statement (.relayPacketStart) := by
  intro h q c p hc; simp [carried] at hc

theorem relayPacketByte (b : Byte) : Statement (.relayPacketByte b) := by
  intro h q c p hc; simp [carried] at hc

theorem relayPacketEnd : Statement (.relayPacketEnd) := by
  intro h q c p hc; simp [carried] at hc

theorem relayIdle : Statement (.relayIdle) := by
  intro h q c p hc; simp [carried] at hc

theorem returnOutputLinkDown : Statement (.returnOutputLinkDown) := by
  intro h q c p hc; simp [carried] at hc

theorem returnOutputLinkUp : Statement (.returnOutputLinkUp) := by
  intro h q c p hc; simp [carried] at hc

theorem returnInputLinkDown : Statement (.returnInputLinkDown) := by
  intro h q c p hc; simp [carried] at hc

theorem returnInputLinkUp : Statement (.returnInputLinkUp) := by
  intro h q c p hc; simp [carried] at hc

theorem unknownCommandCode (how : Addressing) (seq code : Byte) (payload : List Byte) : Statement (.unknownCommandCode how seq code payload) := by
  intro h q c p hc hw
  obtain ⟨rfl, rfl, rfl, rfl⟩ : how = h ∧ seq = q ∧ code = c ∧ payload = p := by simpa [carried] using hc
  simp only [wellFormed, listedCodes, List.contains_cons, List.contains_nil, Bool.and_eq_true, Bool.not_eq_true',
    Bool.or_eq_false_iff, beq_eq_false_iff_ne, ne_eq] at hw
  simp [commandOf, hw]

theorem commitOtherMode (how : Addressing) (seq : Byte) (payload : List Byte) : Statement (.commitOtherMode how seq payload) := by
  intro h q c p hc hw
  obtain ⟨rfl, rfl, rfl, rfl⟩ : how = h ∧ seq = q ∧ codeCommit = c ∧ payload = p := by simpa [carried] using hc
  cases payload with
  | nil => rfl
  | cons m rest =>
    have hm : 2 < m.toNat := by
      simp only [wellFormed, otherMode, Bool.and_eq_true, decide_eq_true_eq] at hw
      exact hw.2
    have h0 : m ≠ 0 := by rintro rfl; simp at hm
    have h1 : m ≠ 1 := by rintro rfl; simp at hm
    have h2 : m ≠ 2 := by rintro rfl; simp at hm
    show (if m = 0 then _ else if m = 1 then _ else if m = 2 then _ else _ : Instr) = _
    rw [if_neg h0, if_neg h1, if_neg h2]

end Sys2Proof.Laws.CommandRoundTrip
end

