-- ==== Sys2Proof/Tests/Slice0.lean ====
section
/-! SUPPORT. The model's own tests: the smoke test of WellFormed, packets written out from the manual, single steps of its worked
examples, and for each statement of Certificates a witness that meets its hypotheses. -/

set_option Elab.async false

namespace Sys2Proof.Tests

open Sys2Proof.Machine

/-! ### Helpers -/

/-- The state a command leads to. -/
def after (s : State) (c : Instr) : State :=
  match exec c s with
  | .next t => t
  | .fault _ => s
  | .refused _ => s

/-- Bytes from numbers. -/
def bytes (l : List Nat) : List Byte := l.map u8

/-- The status of the acknowledgement cached last, and its result data. -/
def answerOf (s : State) : Option (Status × List Byte) := s.session.cached.map fun a => (a.status, a.data)

/-- A unit strapped to 3 with the link up, SYNCED, L 4 and E 5. -/
def live : State :=
  { State.reset with
    unitAddress := 3
    fwdInUp := true
    fwdOutUp := true
    session := { Session.reset with
      sessionState := .synced
      expected := some 5
      last := some 4
      cached := some ⟨4, codeStatus, .ok, []⟩ } }

/-- A tracker LOCKED to 16 pixels by 8 lines, at a position inside a frame. -/
def lockedAt (inLine : Bool) (lines pixels : Nat) : Tracker :=
  { Tracker.reset with
    rasterState := .locked
    candidate := some ⟨16, 8⟩
    matchCount := 2
    locked := some ⟨16, 8⟩
    inFrame := true
    inLine := inLine
    linesBegun := lines
    pixelsInLine := pixels
    frameCounter := 60010 }

/-- The same between two frames. -/
def blanking : Tracker := { lockedAt false 8 16 with inFrame := false }

/-- A tracker ACQUIRING inside a frame that has been regular so far, with that geometry seen once. -/
def acquiringAt (inLine : Bool) (lines pixels : Nat) (mark : Option Nat) : Tracker :=
  { lockedAt inLine lines pixels with
    rasterState := .acquiring
    matchCount := 1
    locked := none
    lengthMark := mark }

/-- An 8-bit image of 16 by 8 pixels: 128 bytes, one page. -/
def picture (phase : ImagePhase) (page : PageNo) (cursor : Nat) : Image := ⟨phase, 16, 8, 8, 16, 128, [page], cursor⟩

/-- A record that draws an image at (4, 3), opaque. -/
def record (image : Nat) (anchor : Option Nat) : ObjectFields where
  image := image
  x := 4
  y := 3
  z := 7
  palette := 1
  row := 0
  scaleX := 1
  scaleY := 1
  flipH := false
  flipV := false
  opacity := 15
  visible := true
  anchor := anchor
  clip := none

/-- Two staged records, 3 anchored to 2, of which 2 is active as well; record 4 is active alone and draws image 7. -/
def tables : ObjectTable :=
  { staged := ((Vector.replicate 64 none).setIfInBounds 2 (some (record 5 none))).setIfInBounds 3 (some (record 5 (some 2)))
    active := ((Vector.replicate 64 none).setIfInBounds 2 (some ⟨record 5 none, 4, 3⟩)).setIfInBounds 4
      (some ⟨{ record 7 none with x := -1024 }, -1024, 3⟩) }

/-- Image 5 READY in page 0, named by both staged records and active record 2; image 6 LOADING in page 1 with 120 of its 128
bytes; image 7 RETIRING in page 2. -/
def store : ImageStore :=
  { memory := [(0, 9), (255, 1)]
    freePages := [3, 4]
    directory := ((Vector.replicate 128 ImageEntry.free |>.setIfInBounds 5 ⟨some (picture .ready 0 128), 2, 1⟩).setIfInBounds 6
      ⟨some (picture .loading 1 120), 0, 0⟩).setIfInBounds 7 ⟨some (picture .retiring 2 128), 0, 1⟩ }

/-- `live` with the tables and images above, one pending palette write, and the active mode COMPOSE. -/
def busy : State :=
  { live with
    objects := tables
    images := store
    palettes := { PaletteUnit.reset with writes := [⟨2, 12, ⟨⟨900, 0, 0⟩, 15⟩⟩] }
    generations := { Generations.reset with activeMode := .compose, stagedMode := .compose, generation := 41, stagedDirty := true } }

/-- `busy` on a composited frame. -/
def drawing (inLine : Bool) (lines pixels : Nat) : State :=
  { busy with
    tracker := lockedAt inLine lines pixels
    compositor := { Compositor.reset with compositing := true } }

/-- A report queue of `n` filled slots. -/
def slots (n : Nat) : List ReportSlot := List.replicate n (.filled [])

/-- `live` holding a packet of these bytes. -/
def holding (b : List Byte) : State :=
  { live with filter := { Filter.reset with
      reception := .holding
      byteCount := b.length
      kindKnown := if b = [] then .no else .command
      holdQueue := ⟨.packetStart, true⟩ :: b.map fun x => ⟨.packetByte x, true⟩ } }

/-- `live` after a link down, with two symbols still to leave. -/
def draining : State :=
  { live with
    fwdInUp := false
    drains := [2]
    filter := { Filter.reset with holdQueue := [⟨.lineEnd, false⟩, ⟨.frameEnd, false⟩] } }

/-! ### WellFormed refuses -/

theorem test_wellFormed_refuses :
    wellFormed (.pixel 1024 0 0) = false ∧ wellFormed (.pixel 0 1024 0) = false ∧ wellFormed (.pixel 0 0 1024) = false ∧
    wellFormed (.hello .unicast 1 (List.replicate 249 0)) = false ∧
    wellFormed (.commitNext .unicast 1 (List.replicate 248 0)) = false ∧
    wellFormed (.commitOtherMode .unicast 1 [2, 0, 0]) = false ∧
    wellFormed (.commitOtherMode .unicast 1 (List.replicate 249 3)) = false ∧
    wellFormed (.unknownCommandCode .unicast 1 codeCommit []) = false ∧
    wellFormed (.unknownCommandCode .unicast 1 0x50 (List.replicate 249 0)) = false := by decide +kernel

theorem test_wellFormed_accepts :
    wellFormed (.pixel 1023 1023 1023) = true ∧ wellFormed (.hello .unicast 1 (List.replicate 248 0)) = true ∧
    wellFormed (.commitNext .unicast 1 (List.replicate 247 0)) = true ∧
    wellFormed (.commitOtherMode .unicast 1 [3, 0, 0]) = true ∧ wellFormed (.commitOtherMode .unicast 1 []) = true ∧
    wellFormed (.unknownCommandCode .unicast 1 0x50 []) = true := by decide +kernel

/-! ### Packets, from chapter 10 -/

/-- "Worked CRC value": the running value after each byte. -/
theorem test_crc_worked_value :
    crc16 [0x43] = 0x9957 ∧ crc16 [0x43, 0x03] = 0x75F3 ∧ crc16 [0x43, 0x03, 0xC8, 0x01] = 0xA70C ∧
    crc16 [0x43, 0x03, 0xC8, 0x01, 0x00, 0x00] = 0x4565 := by decide +kernel

/-- The HELLO packet written out there decodes at unit 3, is another unit's at 4, and fails with its CRC bytes exchanged. -/
theorem test_hello_packet :
    decodeCommand 3 [0x43, 0x03, 0xC8, 0x01, 0x00, 0x00, 0x45, 0x65] = some (.hello .unicast 200 []) ∧
    decodeCommand 4 [0x43, 0x03, 0xC8, 0x01, 0x00, 0x00, 0x45, 0x65] = none ∧
    checkPacket [0x43, 0x03, 0xC8, 0x01, 0x00, 0x00, 0x65, 0x45] = .badCrc ∧
    encodeCommand 3 (.hello .unicast 200 []) = some [0x43, 0x03, 0xC8, 0x01, 0x00, 0x00, 0x45, 0x65] := by decide +kernel

/-- One header of each family, with its CRC. -/
theorem test_packets_of_each_family :
    decodeCommand 3 (let b := bytes [0x43, 0x0F, 9, 0x20, 0, 3, 1, 0xEA, 0x6E]; b ++ crcBytes b) =
      some (.commitAt .broadcast 9 [0xEA, 0x6E]) ∧
    decodeCommand 3 (let b := bytes [0x43, 3, 9, 0x13, 0, 1, 63]; b ++ crcBytes b) = some (.deleteObject .unicast 9 [63]) ∧
    decodeCommand 3 (let b := bytes [0x43, 3, 9, 0x33, 0, 1, 5]; b ++ crcBytes b) = some (.releaseImage .unicast 9 [5]) ∧
    decodeCommand 3 (let b := bytes [0x43, 3, 9, 0x41, 0, 3, 2, 12, 1]; b ++ crcBytes b) =
      some (.readPalette .unicast 9 [2, 12, 1]) ∧
    decodeCommand 3 (let b := bytes [0x43, 3, 9, 0x99, 0, 0]; b ++ crcBytes b) =
      some (.unknownCommandCode .unicast 9 0x99 []) := by decide +kernel

/-! ### Raster symbols, from chapters 3 and 6 -/

/-- R105: the second matching regular frame locks. -/
theorem test_frameEnd_locks :
    (after { live with tracker := acquiringAt false 8 16 (some 16) } .frameEnd).tracker.locked = some ⟨16, 8⟩ ∧
    (after { live with tracker := acquiringAt false 9 16 (some 16) } .frameEnd).tracker.candidate = some ⟨16, 9⟩ := by
  decide +kernel

/-- "One commit across a loss of video", step 7: the apply, in ACQUIRING. -/
theorem test_frameStart_applies :
    let s := { busy with
      tracker := { acquiringAt false 8 16 (some 16) with inFrame := false, frameCounter := 60013 }
      generations := { busy.generations with commit := .armedAt 60014 }
      session := { live.session with mask := ⟨false, true, false, false⟩ } }
    (after s .frameStart).generations = { busy.generations with generation := 42, commit := .idle, stagedDirty := false } ∧
    (after s .frameStart).reports.queue = [.filled (eventReport 3 (.commit ⟨42, 60014⟩))] ∧
    (after s .frameStart).palettes.entryAt 2 12 = ⟨⟨900, 0, 0⟩, 15⟩ := by decide +kernel

/-- R107, R108: a PIXEL past the locked width. -/
theorem test_pixel_longLine :
    (after (drawing true 3 16) (.pixel 1 2 3)).tracker.fault = some ⟨.longLine, 60010, 2⟩ ∧
    (after (drawing true 3 16) (.pixel 1 2 3)).compositor.compositing = false := by decide +kernel

/-- Column 431 of line 210 in "Worked example" of chapter 3: the value (392, 798, 356). -/
theorem test_pixel_blended :
    let far : ObjectFields := { record 0 none with z := 50, palette := 1, row := 3, scaleX := 2, flipH := true, opacity := 15 }
    let near : ObjectFields := { record 1 none with z := 90, palette := 4, flipV := true, opacity := 10 }
    let pages (n k : Nat) : List PageNo := (List.range k).map fun i => Fin.ofNat 2048 (n + i)
    let s : State := { drawing true 211 431 with
      tracker := { lockedAt true 211 431 with locked := some ⟨1920, 1080⟩ }
      objects := { tables with
        active := ((Vector.replicate 64 none).setIfInBounds 6 (some ⟨far, 400, 200⟩)).setIfInBounds 2
          (some ⟨near, 420, 190⟩) }
      images := ({ store with memory := [(4 * 128 + 30, 183), (121 * 128 + 75, 200)] }.setEntry 0
        ⟨some ⟨.ready, 100, 37, 4, 50, 1850, pages 0 15, 1850⟩, 0, 1⟩).setEntry 1
        ⟨some ⟨.ready, 64, 64, 8, 64, 4096, pages 100 32, 4096⟩, 0, 1⟩
      palettes := (PaletteUnit.reset.writeActive ⟨1, 59, ⟨⟨1000, 600, 40⟩, 12⟩⟩).writeActive ⟨4, 200, ⟨⟨0, 1023, 500⟩, 12⟩⟩
      compositor := { Compositor.reset with
        compositing := true, candidates := [⟨2, 420, 484, 64, 43⟩, ⟨6, 400, 600, 100, 10⟩] } }
    (after s (.pixel 200 300 800)).fwdSent = [.symbol (.pixel ⟨392, 798, 356⟩)] := by decide +kernel

/-- R52 to R60 on line 3 of the small scene: record 2 covers columns 4 to 15 and shows its row 0. -/
theorem test_lineStart_candidates :
    (after (drawing false 3 0) .lineStart).compositor.candidates = [⟨2, 4, 16, 12, 0⟩] ∧
    (after (drawing false 2 0) .lineStart).compositor.candidates = [] := by decide +kernel

/-- R107: a LINE_END short of the locked width; R51 empties the list. -/
theorem test_lineEnd :
    (after (drawing true 3 15) .lineEnd).tracker.fault = some ⟨.shortLine, 60010, 2⟩ ∧
    (after (drawing true 3 16) .lineEnd).tracker.fault = none := by decide +kernel

/-! ### Packet symbols and the link, from chapter 7 -/

/-- "An own-addressed command", steps 4 and 5 with a HELLO of 8 bytes: 10 IDLEs for the packet, and one of them in this slot. -/
theorem test_packetEnd_takes :
    let t := after (holding [0x43, 0x03, 0xC8, 0x01, 0x00, 0x00, 0x45, 0x65]) .packetEnd
    t.session.expected = some 201 ∧ t.forwardStream = List.replicate 10 (.symbol .idle) ∧ t.filter.holdQueue.length = 9 := by
  decide +kernel

/-- R125: a wrong CRC is counted and the packet passes. -/
theorem test_packetEnd_badCrc :
    let t := after (holding [0x43, 0x03, 0xC8, 0x01, 0x00, 0x00, 0x65, 0x45]) .packetEnd
    t.filter.crcTally = 1 ∧ t.session.expected = some 5 ∧ t.fwdSent = [.symbol .packetStart] := by decide +kernel

/-- R122 and R123: a kind byte that is not COMMAND, and the 257th byte. -/
theorem test_packetByte :
    (after (holding []) (.packetByte 0x44)).filter.reception = .unexamined ∧
    (after (holding (0x43 :: List.replicate 255 0)) (.packetByte 1)).filter.reception = .overlong ∧
    (after (holding (0x43 :: List.replicate 254 0)) (.packetByte 1)).filter.byteCount = 256 := by decide +kernel

/-- R128: a packet that begins inside a line is not held, and faults a locked raster. -/
theorem test_packetStart_in_line :
    (after (drawing true 3 5) .packetStart).filter.reception = .unexamined ∧
    (after (drawing true 3 5) .packetStart).tracker.fault.map FaultRecord.kind = some .packetInLine := by decide +kernel

/-- "A packet cut by a line", step 2: truncation tally 6 becomes 7. -/
theorem test_lineStart_cuts :
    let s := holding (0x43 :: List.replicate 24 0)
    (after { s with filter := { s.filter with truncTally := 6 } } .lineStart).filter.truncTally = 7 := by decide +kernel

/-- R130: an IDLE behind a waiting symbol is absorbed. -/
theorem test_idle :
    (after (holding [0x43]) .idle).filter = (holding [0x43]).filter ∧ (after live .idle).fwdSent = [.symbol .idle] := by
  decide +kernel

/-- R117: the queue drains, then DOWN, and a link up meanwhile waits for the drain's end. -/
theorem test_link :
    (after (holding [0x43]) .forwardLinkDown).drains = [2] ∧
    (after draining .drainEnd).fwdSent = [.symbol .lineEnd, .symbol .frameEnd, .linkDown] ∧
    (after draining .forwardLinkUp).fwdSent = [] ∧
    (after { draining with fwdInUp := true } .drainEnd).fwdSent = [.symbol .lineEnd, .symbol .frameEnd, .linkDown, .linkUp] := by
  decide +kernel

/-- R117, R129: a symbol that arrives in a drain sends the drain's next one; the last one brings DOWN and UP behind it. -/
theorem test_drain_slots :
    let up : State := { draining with fwdInUp := true }
    let last : State := { up with drains := [1], filter := { up.filter with holdQueue := [⟨.frameEnd, false⟩] } }
    ((after up .idle).fwdSent, (after up .idle).drains) = ([.symbol .lineEnd], [1]) ∧
    (after last (.packetByte 7)).fwdSent = [.symbol .frameEnd, .linkDown, .linkUp] ∧
    ((after last (.packetByte 7)).filter.holdQueue, (after last (.packetByte 7)).drains) = ([⟨.packetByte 7, false⟩], []) := by
  decide +kernel

/-- R118, R119: the release samples the straps; an unaddressed unit holds nothing. -/
theorem test_reset :
    (after live .resetAssert).roomBelow = false ∧ (after busy (.resetRelease 7)).unitAddress = 7 ∧
    (after busy (.resetRelease 7)).session.sessionState = .unsynced ∧ (after busy (.powerUp 15)).images.entry 5 = ImageEntry.free ∧
    (after { live with unitAddress := 15 } .packetStart).filter.reception = .unexamined := by decide +kernel

/-! ### The session, from chapter 8 -/

/-- "The sequence protocol through a session", steps 1, 2, 5 and 6. -/
theorem test_sequence_protocol :
    let fresh : State := { live with session := Session.reset }
    (after fresh (.moveObject .unicast 10 (bytes [0, 0, 0, 0, 0]))).session = Session.reset ∧
    (after fresh (.hello .unicast 200 [])).session.expected = some 201 ∧
    (after live (.createImage .unicast 4 [])).reports.queue = [.filled (ackReport 3 ⟨4, codeStatus, .ok, []⟩ true 0 none)] ∧
    (after live (.loadImage .unicast 7 [])).reports.queue =
      [.filled (ackReport 3 ⟨7, codeLoadImage, .sequence, [1, 5]⟩ false 0 none)] := by decide +kernel

/-- Steps 7 and 8: a full queue discards, and the first number is kept. -/
theorem test_discards :
    let full (n : Nat) (first : Option Byte) : State := { live with
      session := { live.session with discardTally := n, firstDiscarded := first }
      reports := { ReportUnit.reset with queue := slots 8 } }
    (after (full 0 none) (.loadImage .unicast 203 [])).session = (full 1 (some 203)).session ∧
    (after (full 1 (some 203)) (.loadImage .unicast 204 [])).session = (full 2 (some 203)).session := by decide +kernel

/-- R145: the identity reply of unit 3. -/
theorem test_hello_reply :
    answerOf (after live (.hello .unicast 9 [])) =
      some (.ok, bytes [0x4B, 0x16, 1, 3, 10, 64, 128, 8, 0, 128, 8, 1, 0, 1, 0, 12, 8, 0, 8, 4]) := by decide +kernel

/-- R146: the status record's length and its free slots. -/
theorem test_status :
    (answerOf (after live (.status .unicast 5 []))).map (fun a => (a.1, a.2.length, a.2.getLast?)) =
      some (.ok, 46, some 7) := by decide +kernel

/-- R147. -/
theorem test_setEvents :
    (after live (.setEvents .unicast 5 [0x09])).session.mask = ⟨true, false, false, true⟩ ∧
    answerOf (after live (.setEvents .unicast 5 [0x10])) = some (.range, []) := by decide +kernel

/-- "A broadcast commit across three units": what unit 0 and unit 1 make of it. -/
theorem test_broadcasts :
    (after live (.status .broadcast 1 [])).session.refusalTally = 1 ∧
    (after live (.commitNext .broadcast 1 [0, 0])).generations.commit = .armedNext ∧
    (after { live with generations := { live.generations with commit := .armedNext } }
      (.commitNext .broadcast 1 [0, 0])).session.refusalTally = 1 ∧
    (after live (.commitNow .broadcast 1 [0, 0])).session.refusalTally = 1 := by decide +kernel

/-- R141, R25. -/
theorem test_unknown_and_other_mode :
    answerOf (after live (.unknownCommandCode .unicast 5 0x99 [])) = some (.unknown, []) ∧
    answerOf (after live (.commitOtherMode .unicast 5 [3, 0, 0])) = some (.range, bytes [0, 0, 0, 0, 0, 0, 0, 0]) ∧
    answerOf (after live (.commitOtherMode .unicast 5 [])) = some (.length, []) := by decide +kernel

/-! ### Objects, from chapter 1 -/

/-- The chain of "Building and rearranging a chain" at its start, and its five commands. -/
def chain (a10 : Option Nat) : ObjectTable :=
  [(10, a10), (11, some 10), (12, some 11), (20, none), (21, some 20)].foldl
    (fun t q => t.setStaged q.1 (some (record 5 q.2))) ObjectTable.reset

theorem test_anchor_checks :
    checkAnchor (chain none) 10 20 = .passed ∧ depthOf (chain (some 20)).stagedAt 3 12 = 3 ∧
    checkAnchor (chain (some 20)) 30 12 = .failed .depth [4] ∧ checkAnchor (chain (some 20)) 20 12 = .failed .cycle [12] ∧
    checkAnchor (chain (some 20)) 21 11 = .passed ∧ checkAnchor (chain none) 30 31 = .failed .noObject [] := by decide +kernel

theorem test_setObjectAttr :
    answerOf (after { busy with objects := chain none } (.setObjectAttr .unicast 5 (bytes [10, 0x04, 0x00, 20]))) =
      some (.ok, [10, 1]) ∧
    ((after { busy with objects := chain (some 20) } (.setObjectAttr .unicast 5
      (bytes [21, 0x04, 0x40, 9, 11]))).objects.stagedAt 21).map (fun o => (o.anchor, o.opacity)) = some (some 11, 9) := by
  decide +kernel

theorem test_defineObject :
    let p := bytes [1, 5, 0xFF, 0xFC, 0, 9, 200, 7, 15, 1, 4, 0, 1, 15, 1, 1, 2, 1, 0, 0, 0, 0, 0, 16, 0x10, 0]
    (after busy (.defineObject .unicast 5 p)).objects.stagedAt 1 =
      some ⟨5, -4, 9, 200, 7, 15, 1, 4, false, true, 15, true, some 2, some ⟨0, 0, 16, 4096⟩⟩ ∧
    (after busy (.defineObject .unicast 5 p)).images.entry 5 = ⟨some (picture .ready 0 128), 3, 1⟩ ∧
    answerOf (after busy (.defineObject .unicast 5 (p.set 1 6))) = some (.notReady, []) := by decide +kernel

theorem test_moveObject :
    ((after busy (.moveObject .unicast 5 (bytes [2, 0xFC, 0, 0x0F, 0xFF]))).objects.stagedAt 2).map (fun o => (o.x, o.y)) =
      some (-1024, 4095) ∧
    answerOf (after busy (.moveObject .unicast 5 (bytes [2, 0xFB, 0xFF, 0, 0]))) = some (.range, []) := by decide +kernel

theorem test_deleteObject :
    answerOf (after busy (.deleteObject .unicast 5 [2])) = some (.inUse, []) ∧
    (after busy (.deleteObject .unicast 5 [3])).images.entry 5 = ⟨some (picture .ready 0 128), 1, 1⟩ := by decide +kernel

theorem test_readObject :
    answerOf (after busy (.readObject .unicast 5 [9, 0])) = some (.ok, [0, 9, 0]) ∧
    (answerOf (after busy (.readObject .unicast 5 [2, 1]))).map (fun a => (a.2.take 3, a.2.drop (a.2.length - 4))) =
      some ([1, 2, 1], [0, 4, 0, 3]) := by decide +kernel

/-! ### Generations, from chapter 2 -/

/-- "One commit across a loss of video", step 1 and the two ranges below it. -/
theorem test_commitAt :
    let s := { busy with tracker := lockedAt false 0 0 }
    (after s (.commitAt .unicast 5 (be16 60014))).generations.commit = .armedAt 60014 ∧
    (answerOf (after s (.commitAt .unicast 5 (be16 60010)))).map Prod.fst = some .range ∧
    (answerOf (after s (.commitAt .unicast 5 (be16 61100)))).map Prod.fst = some .range ∧
    (answerOf (after s (.commitAt .unicast 5 (be16 61034)))).map Prod.fst = some .ok := by decide +kernel

theorem test_commitNext_and_cancel :
    answerOf (after busy (.commitNext .unicast 5 [0, 0])) = some (.ok, bytes [1, 0, 0, 0, 0, 0, 41, 1]) ∧
    (after { busy with generations := { busy.generations with commit := .armedNext } }
      (.cancelCommit .unicast 5 [])).generations.commit = .idle := by decide +kernel

theorem test_commitNow :
    (after busy (.commitNow .unicast 5 [0, 0])).generations.generation = 42 ∧
    ((after busy (.commitNow .unicast 5 [0, 0])).objects.activeAt 3).map (fun a => (a.ex, a.ey)) = some (8, 6) ∧
    (answerOf (after { busy with tracker := lockedAt false 0 0 } (.commitNow .unicast 5 [0, 0]))).map Prod.fst = some .locked := by
  decide +kernel

theorem test_setMode_and_discard :
    answerOf (after busy (.setMode .unicast 5 (bytes [2, 3, 255, 0, 1, 0, 2]))) =
      some (.ok, bytes [2, 3, 255, 0, 1, 0, 2]) ∧
    answerOf (after busy (.setMode .unicast 5 (bytes [2, 4, 0, 0, 0, 0, 0]))) = some (.range, []) ∧
    answerOf (after busy (.discard .unicast 5 [])) = some (.ok, bytes [0, 41, 1]) ∧
    (after busy (.discard .unicast 5 [])).objects.stagedAt 3 = none := by decide +kernel

/-- "CLEAR_ALL with displayed and loading images" on the small scene: image 5 is drawn, 6 is LOADING, 7 RETIRING. -/
theorem test_clearAll :
    let s := { busy with tracker := lockedAt false 0 0 }
    answerOf (after s (.clearAll .unicast 5 [])) = some (.ok, bytes [1, 0, 41, 1, 1]) ∧
    (after s (.clearAll .unicast 5 [])).images.freePages = [3, 4, 1] ∧
    (after s (.clearAll .broadcast 5 [])).generations.commit = .armedNext := by decide +kernel

/-! ### Images and palettes, from chapters 4 and 5 -/

/-- "The free page list through a sequence of commands", below the table: the head of the list at page 2040, 0 to 14 at the
tail. -/
theorem test_createImage :
    let pages (n k : Nat) : List PageNo := (List.range k).map fun i => Fin.ofNat 2048 (n + i)
    let s : State := { busy with images := { store with freePages := pages 2040 8 ++ pages 0 15 } }
    let t := after s (.createImage .unicast 5 (bytes [3, 0, 40, 0, 32, 8]))
    answerOf t = some (.ok, bytes [3, 0, 0, 0x05, 0, 0, 10, 0, 13]) ∧
    (t.images.entry 3).pages = pages 2040 8 ++ pages 0 2 ∧
    answerOf (after { s with images := { store with freePages := pages 2 13 } }
      (.createImage .unicast 5 (bytes [4, 0, 16, 0, 112, 8]))) = some (.noSpace, bytes [0, 14, 0, 13]) := by decide +kernel

theorem test_loadImage :
    let t := after busy (.loadImage .unicast 5 (bytes [6, 0, 120, 1, 2, 3, 4, 5, 6, 7, 8]))
    answerOf t = some (.ok, bytes [6, 0, 0, 0, 128, 2]) ∧ imageByte t.images.memory [1] 127 = 8 ∧
    answerOf (after busy (.loadImage .unicast 5 (bytes [6, 0, 119, 1]))) = some (.offset, bytes [6, 0, 0, 0, 120, 1]) := by
  decide +kernel

/-- "Retirement across a commit", steps 1, 3 and 4. -/
theorem test_release_and_restart :
    answerOf (after busy (.releaseImage .unicast 5 [5])) = some (.inUse, bytes [5, 2]) ∧
    answerOf (after busy (.restartImage .unicast 5 [5])) = some (.inDisplay, []) ∧
    answerOf (after { busy with images := store.setEntry 5 ⟨some (picture .ready 0 128), 0, 1⟩ } (.releaseImage .unicast 5 [5])) =
      some (.ok, bytes [5, 3, 0, 2]) := by decide +kernel

theorem test_imageInfo :
    (answerOf (after busy (.imageInfo .unicast 5 [5]))).map (fun a => a.2.take 6) = some (bytes [5, 2, 0, 2, 2, 1]) ∧
    answerOf (after busy (.imageInfo .unicast 5 [128])) = some (.range, []) := by decide +kernel

/-- "The pending list across several writes", step 2 on a list that holds (2, 12) alone. -/
theorem test_writePalette :
    let t := after busy (.writePalette .unicast 5 (bytes [2, 12, 0, 0, 3, 132, 0, 0, 8, 0, 1, 0, 2, 0, 3, 4]))
    answerOf t = some (.ok, bytes [2, 12, 0, 2, 1, 1]) ∧
    t.palettes.writes = [⟨2, 12, ⟨⟨0, 900, 0⟩, 8⟩⟩, ⟨2, 13, ⟨⟨1, 2, 3⟩, 4⟩⟩] := by decide +kernel

theorem test_readPalette :
    answerOf (after busy (.readPalette .unicast 5 [2, 12, 1])) = some (.ok, bytes [2, 12, 1, 3, 132, 0, 0, 0, 0, 15, 0, 0, 1]) ∧
    answerOf (after busy (.readPalette .unicast 5 [2, 12, 0])) = some (.ok, bytes [2, 12, 0, 0, 0, 0, 0, 0, 0, 0, 0, 0, 1]) := by
  decide +kernel

/-! ### The return lane, from chapter 9 -/

/-- The queues of "Alternation and a lost transmission" at step 1, with ROOM asserted. -/
def lanes : State :=
  { live with
    upstreamRoom := true
    reports := { ReportUnit.reset with
      queue := slots 2
      relay := List.replicate 4 ⟨List.replicate 8 7, true⟩
      inputLaneUp := true
      outputLaneUp := true } }

/-- The same with a transmission of a queue's head under way. -/
def serving (q : QueueName) : State :=
  { lanes with reports := { lanes.reports with transmitter := .sending q, lastServed := q } }

/-- The same after the output lane went down in that transmission. -/
def lost (q : QueueName) : State :=
  { lanes with reports := { lanes.reports with transmitter := .abandoned q, lastServed := q, outputLaneUp := false } }

/-- "Alternation and a lost transmission", steps 1, 2, 3 and 5. -/
theorem test_transmission :
    (after { lanes with upstreamRoom := false } .upstreamRoomAsserted).reports.transmitter = .sending .relay ∧
    ((after (serving .relay) .transmissionEnd).roomBelow, (after (serving .relay) .transmissionEnd).reports.transmitter,
      (after (serving .relay) .transmissionEnd).reports.lastServed) = (true, .sending .report, .report) ∧
    (after (serving .report) .returnOutputLinkDown).reports.transmitter = .abandoned .report ∧
    ((after (lost .report) .returnOutputLinkUp).reports.transmitter, (after (lost .report) .returnOutputLinkUp).reports.lastServed) =
      (.sending .report, .report) := by decide +kernel

/-- R157: a report filled into an empty queue, and a packet received whole, are begun in that event; not with ROOM withdrawn. -/
theorem test_transmission_begins_at_once :
    let s : State := { lanes with reports := { lanes.reports with queue := [], relay := [] } }
    let r : State := { lanes with reports := { lanes.reports with queue := [], relay := [⟨List.replicate 8 1, false⟩] } }
    (after s (.status .unicast 5 [])).reports.transmitter = .sending .report ∧
    (after { s with upstreamRoom := false } (.status .unicast 5 [])).reports.transmitter = .free ∧
    (after r .relayPacketEnd).reports.transmitter = .sending .relay := by decide +kernel

/-- "A report queue under a withheld ROOM", step 10: the end of A2 lets COMMIT (43) be built. -/
theorem test_transmissionEnd_builds :
    let s : State := { lanes with reports := { lanes.reports with
      queue := slots 7
      events := { PendingEvents.empty with commit := some ⟨43, 0⟩ }
      transmitter := .sending .report } }
    (after s .transmissionEnd).reports.queue = slots 6 ++ [.filled (eventReport 3 (.commit ⟨43, 0⟩))] ∧
    (after s .transmissionEnd).reports.events = PendingEvents.empty := by decide +kernel

/-- R155: the fourth place, the 65th byte, and a packet of fewer than 8 bytes. -/
theorem test_relay :
    let s (l : List RelayPlace) : State := { lanes with reports := { lanes.reports with relay := l } }
    (after lanes .relayPacketStart).reports.relay.length = 4 ∧
    (after (s [⟨List.replicate 64 1, false⟩]) (.relayPacketByte 2)).reports.relay = [] ∧
    (after (s [⟨List.replicate 7 1, false⟩]) .relayPacketEnd).reports.relay = [] ∧
    (after (s [⟨List.replicate 8 1, false⟩]) .relayPacketEnd).reports.relay = [⟨List.replicate 8 1, true⟩] ∧
    (after (s [⟨[1], false⟩]) .returnInputLinkDown).reports.relay = [] ∧ (after lanes .relayIdle).reports = lanes.reports := by decide +kernel

/-- The step takes the front command with the queue's rest, and no word of the table spells one. -/
theorem test_step :
    (match step { live with pending := [.upstreamRoomAsserted, .idle] } with
      | .next t => t.upstreamRoom && t.pending == [.idle]
      | _ => false) = true ∧
    decodeTableWord 8 0 = none := by decide +kernel

/-- A word that spells no command leaves the queue as it is. -/
theorem test_withFetchWord : live.withFetchWord 8 0 = live := rfl

/-! ### Witnesses: states that obey the laws -/

theorem stagedAt_tables (i : Nat) :
    tables.stagedAt i = if i = 3 then some (record 5 (some 2)) else if i = 2 then some (record 5 none) else none := by
  simp only [tables, ObjectTable.stagedAt, getD_setIfInBounds, getD_replicate]
  split_ifs <;> first | rfl | omega

theorem activeAt_tables (i : Nat) :
    tables.activeAt i = if i = 4 then some ⟨{ record 7 none with x := -1024 }, -1024, 3⟩
      else if i = 2 then some ⟨record 5 none, 4, 3⟩ else none := by
  simp only [tables, ObjectTable.activeAt, getD_setIfInBounds, getD_replicate]
  split_ifs <;> first | rfl | omega

theorem entry_store (h : Nat) :
    store.entry h = if h = 7 then ⟨some (picture .retiring 2 128), 0, 1⟩
      else if h = 6 then ⟨some (picture .loading 1 120), 0, 0⟩
      else if h = 5 then ⟨some (picture .ready 0 128), 2, 1⟩ else ImageEntry.free := by
  simp only [store, ImageStore.entry, getD_setIfInBounds, getD_replicate]
  split_ifs <;> first | rfl | omega

theorem record_inRange (image : Nat) (anchor : Option Nat) (h : image < 128) (ha : ∀ a, anchor = some a → a < 64) :
    (record image anchor).InRange := by
  constructor <;> simp [record, h]
  exact ha

theorem witness_stepKeepsTrackerLegal (c : Instr) :
    (drawing true 8 16).tracker.Legal ∧ ∃ t, step { drawing true 8 16 with pending := [c] } = .next t := by
  refine ⟨by constructor <;> simp [drawing, lockedAt, Tracker.reset, Geometry.InRange], ?_⟩
  cases c <;> exact ⟨_, rfl⟩

theorem witness_stepKeepsForwardChannelLegal : (holding (0x43 :: List.replicate 255 0)).ChannelLegal ∧ draining.ChannelLegal ∧
    ∃ t, step { holding (0x43 :: List.replicate 255 0) with pending := [.packetByte 0] } = .next t := by
  refine ⟨⟨?_, ?_, ?_⟩, ⟨?_, ?_, ?_⟩, _, rfl⟩
  · constructor <;> decide +kernel
  · unfold State.HoldingLegal; decide +kernel
  · constructor <;> decide +kernel
  · constructor <;> decide +kernel
  · unfold State.HoldingLegal; decide +kernel
  · constructor <;> decide +kernel

theorem witness_stepKeepsSessionLegal : live.session.Legal ∧ Session.Legal { Session.reset with discardTally := 255, firstDiscarded := some 0 } ∧
    ∃ t, step { live with pending := [.hello .unicast 5 []] } = .next t := by
  refine ⟨?_, ?_, _, rfl⟩ <;> constructor <;> simp [live, Session.reset]

/-- A report unit at its limits: 7 reports, one event waiting, 4 relay places with the last in reception, a report under way. -/
def loaded : ReportUnit :=
  { lanes.reports with
    queue := slots 7
    events := { PendingEvents.empty with commit := some ⟨43, 0⟩ }
    relay := List.replicate 3 ⟨List.replicate 64 7, true⟩ ++ [⟨List.replicate 64 7, false⟩]
    transmitter := .sending .report }

theorem witness_stepKeepsReportUnitLegal :
    (loaded.Legal ∧ ∃ t, step { live with reports := loaded, pending := [.transmissionEnd] } = .next t) ∧
    ((serving .relay).ArbiterSettled ∧ (serving .relay).retOutUp = true ∧ (serving .relay).upstreamRoom = true) ∧
    ∃ t, step { serving .relay with pending := [.transmissionEnd] } = .next t := by
  refine ⟨⟨⟨by decide +kernel, by decide +kernel, by decide +kernel, by decide +kernel, by decide +kernel, by decide +kernel, ?_, ?_⟩, _, rfl⟩,
    ⟨?_, rfl, rfl⟩, _, rfl⟩
  · intro q h; cases h; exact ⟨rfl, rfl⟩
  · intro q h; cases h
  · exact fun _ _ => ⟨nofun, nofun⟩

/-- A store with image 5 READY in page 0 and every other page free. -/
def paged : ImageStore :=
  { memory := [(0, 9)]
    freePages := (List.finRange 2047).map Fin.succ
    directory := (Vector.replicate 128 ImageEntry.free).setIfInBounds 5 ⟨some (picture .ready 0 128), 0, 0⟩ }

theorem paged_pageLaw : paged.PageLaw := by
  intro p
  have e := pageUses_setEntry { paged with directory := Vector.replicate 128 ImageEntry.free } 5 (by omega)
    ⟨some (picture .ready 0 128), 0, 0⟩ p
  have f : (ImageStore.entry { paged with directory := Vector.replicate 128 ImageEntry.free } 5) = ImageEntry.free :=
    getD_replicate 128 5 ImageEntry.free
  have g : ImageStore.pageUses { paged with directory := Vector.replicate 128 ImageEntry.free } p = paged.freePages.count p := by
    simp only [ImageStore.pageUses, Vector.toList_replicate, List.map_replicate, List.sum_replicate]
    simp [ImageEntry.free, ImageEntry.pages]
  have k : ((0 : PageNo) :: (List.finRange 2047).map Fin.succ).count p = 1 := by
    rw [← List.finRange_succ]; exact count_finRange p
  have k' : paged.freePages = (List.finRange 2047).map Fin.succ := by simp only [paged]
  rw [← k', List.count_cons] at k
  rw [f, g] at e
  simp only [ImageEntry.free, ImageEntry.pages, picture, List.count_nil, List.count_cons] at e
  have h : paged = ImageStore.setEntry { paged with directory := Vector.replicate 128 ImageEntry.free } 5
      ⟨some (picture .ready 0 128), 0, 0⟩ := by simp only [paged, ImageStore.setEntry]
  rw [h]
  refine (Nat.add_zero _).symm.trans (e.trans ?_)
  rw [Nat.zero_add]; exact k

theorem paged_entriesLegal : paged.EntriesLegal := by
  intro h im e
  have : paged.entry h = if h = 5 then ⟨some (picture .ready 0 128), 0, 0⟩ else ImageEntry.free := by
    simp only [paged, ImageStore.entry, getD_setIfInBounds, getD_replicate]
    split_ifs <;> first | rfl | omega
  simp only [ImageStore.imageAt, this] at e
  split_ifs at e
  · cases e; constructor <;> decide
  · cases e

theorem witness_stepKeepsImageStoreLegal : paged.Legal ∧ ∃ t, step { live with images := paged, pending := [.releaseImage .unicast 5 [5]] } = .next t :=
  ⟨⟨paged_pageLaw, paged_entriesLegal, by decide +kernel⟩, _, rfl⟩

theorem tables_inRange : tables.RecordsInRange := by
  constructor
  · intro i o h
    rw [stagedAt_tables] at h
    split_ifs at h <;> first
      | (cases h; exact record_inRange _ _ (by omega) (by intro a e; cases e; omega))
      | (cases h; exact record_inRange _ _ (by omega) (by intro a e; cases e))
  · intro i o h
    rw [activeAt_tables] at h
    split_ifs at h
    · cases h; constructor <;> simp [record]
    · cases h; exact record_inRange _ _ (by omega) (by intro a e; cases e)

theorem witness_stepKeepsReferencesExact : busy.ReferenceLegal ∧ ∃ t, step { busy with pending := [.deleteObject .unicast 5 [3]] } = .next t := by
  refine ⟨⟨tables_inRange, ?_, ?_, ?_⟩, _, rfl⟩
  · unfold State.CountsExact; decide +kernel
  · intro i o h
    change tables.stagedAt i = some o at h
    rw [stagedAt_tables] at h
    refine ⟨picture .ready 0 128, ?_, rfl⟩
    change (store.entry o.image).image = _
    split_ifs at h <;> cases h <;> rw [entry_store] <;> rfl
  · intro i o h
    change tables.activeAt i = some o at h
    rw [activeAt_tables] at h
    change ∃ im, (store.entry o.fields.image).image = some im ∧ _
    split_ifs at h
    · cases h; exact ⟨_, by rw [entry_store]; rfl, .inr rfl⟩
    · cases h; exact ⟨_, by rw [entry_store]; rfl, .inl rfl⟩

theorem tables_anchors : tables.AnchorLaw := by
  constructor
  · intro i o h
    rw [stagedAt_tables] at h
    split_ifs at h with h1 h2
    · subst h1; decide +kernel
    · subst h2; decide +kernel
  · intro i o h
    simp only [ObjectTable.activeFields, activeAt_tables] at h
    split_ifs at h with h1 h2
    · subst h1; decide +kernel
    · subst h2; decide +kernel
    · cases h

theorem witness_stepKeepsAnchorChainsShort : busy.objects.AnchorLaw ∧ ∃ t, step { busy with pending := [.frameStart] } = .next t :=
  ⟨tables_anchors, _, rfl⟩

theorem witness_stepKeepsPositionsResolved : busy.objects.PositionsResolved ∧ busy.objects.AnchorLaw ∧ busy.objects.RecordsInRange ∧
    ∃ t, step { busy with pending := [.commitNow .unicast 5 [0, 0]] } = .next t := by
  refine ⟨?_, tables_anchors, tables_inRange, _, rfl⟩
  intro i a h
  change tables.activeAt i = some a at h
  rw [activeAt_tables] at h
  split_ifs at h <;> cases h <;> simp [record]

theorem busy_palettes : busy.palettes.Legal := by
  constructor
  · intro p i
    have : busy.palettes.entryAt p i = PaletteEntry.zero := by
      simp only [busy, PaletteUnit.reset, PaletteUnit.entryAt, getD_replicate]
    rw [this]; simp [PaletteEntry.InRange, Colour.InRange, PaletteEntry.zero, Colour.zero]
  · simp [busy, PaletteUnit.reset, PaletteEntry.InRange, Colour.InRange]
  · decide +kernel
  · simp [busy, PaletteUnit.reset]

theorem witness_stepKeepsColoursInRange : busy.palettes.Legal ∧ busy.generations.Legal ∧
    ∃ t, step { busy with pending := [.commitNow .unicast 5 [0, 0]] } = .next t := by
  refine ⟨busy_palettes, ?_, _, rfl⟩
  simp [busy, Generations.Legal, Generations.reset, Colour.InRange, Colour.zero]

theorem drawing_compositor (inLine : Bool) (lines pixels : Nat) : (drawing inLine lines pixels).CompositorLegal := by
  constructor <;> simp [drawing, busy, lockedAt, Compositor.reset, Generations.reset]

theorem witness_stepKeepsCompositorLegal : (drawing true 3 5).CompositorLegal ∧
    ∃ t, step { drawing true 3 5 with pending := [.frameEnd] } = .next t := ⟨drawing_compositor _ _ _, _, rfl⟩

theorem witness_unaddressedUnitStaysAtReset : State.Dormant { State.reset with unitAddress := 15, fwdInUp := true } ∧
    ∃ t, exec .packetStart { State.reset with unitAddress := 15, fwdInUp := true } = .next t := by
  refine ⟨?_, _, rfl⟩
  constructor <;> simp [State.reset, Filter.reset, ReportUnit.reset]

/-! ### Witnesses: each clause of the statements -/

theorem witness_stepRunsTheFrontCommand :
    ({ live with pending := [.frameStart, .idle] } : State).pending = .frameStart :: [.idle] ∧ live.pending = [] := ⟨rfl, rfl⟩

theorem witness_packetsAndCommandsAgree :
    (14 : BitVec 4) ≠ 15 ∧
    wellFormed (.unknownCommandCode .broadcast 255 0xFF (List.replicate 248 7)) = true ∧
    (encodeCommand 14 (.unknownCommandCode .broadcast 255 0xFF (List.replicate 248 7))).isSome = true ∧
    (let b := packetBytesOf 15 9 codeCommit [1, 0xEA, 0x6E];
      b.length ≤ 256 ∧ (decodeCommand 0 b).isSome = true ∧ b.head? = some kindCommand ∧ byteAt b 1 < 16) := by decide +kernel

theorem drawing_holding (inLine : Bool) (lines pixels : Nat) : (drawing inLine lines pixels).HoldingLegal := by
  intro h; cases h

theorem witness_activeSideStandsWhileLocked :
    ((drawing true 3 5).HoldingLegal ∧ (drawing true 3 5).tracker.rasterState = .locked ∧
      isHardReset (.commitNow .unicast 5 [0, 0]) = false ∧ Instr.commitNow .unicast 5 [0, 0] ≠ .frameStart ∧
      ∃ t, exec (.commitNow .unicast 5 [0, 0]) (drawing true 3 5) = .next t) ∧
    (∃ t, exec (.commitNow .unicast 5 [0, 0]) busy = .next t ∧ t.activeSide ≠ busy.activeSide) ∧
    (isHardReset (.powerUp 15) = true ∧ ∃ t, exec (.powerUp 15) busy = .next t) := by
  refine ⟨⟨drawing_holding _ _ _, rfl, rfl, by decide, _, rfl⟩, ⟨_, rfl, ?_⟩, rfl, _, rfl⟩
  intro h
  have := congrArg (fun x => (x.1.getD 3 none).isSome) h
  revert this
  decide +kernel

/-- `busy` with a commit armed. -/
def armed (c : CommitState) : State := { busy with generations := { busy.generations with commit := c } }

theorem witness_stagedSideStandsWhileArmed :
    (wellFormed (.moveObject .unicast 5 (bytes [2, 0, 1, 0, 1])) = true ∧ (armed .armedNext).generations.commit.isArmed = true ∧
      isHardReset (.moveObject .unicast 5 (bytes [2, 0, 1, 0, 1])) = false ∧
      ∃ t, exec (.moveObject .unicast 5 (bytes [2, 0, 1, 0, 1])) (armed .armedNext) = .next t) ∧
    carried (.moveObject .unicast 5 (bytes [2, 0, 1, 0, 1])) = some (.unicast, 5, codeMoveObject, bytes [2, 0, 1, 0, 1]) ∧
    (armed (.armedAt 0)).Expects 5 ∧ (armed (.armedAt 0)).generations.commit.isArmed = true ∧
    lengthFits codeMoveObject (bytes [2, 0, 1, 0, 1]) = true := by
  refine ⟨⟨by decide +kernel, rfl, rfl, _, rfl⟩, rfl, by decide +kernel, rfl, by decide +kernel⟩

theorem witness_imageBytesStandOutsideLoading :
    paged.PageLaw ∧ isHardReset (.restartImage .unicast 5 [5]) = false ∧
    (∃ t, exec (.restartImage .unicast 5 [5]) { live with images := paged } = .next t) ∧
    paged.imageAt 5 = some (picture .ready 0 128) ∧ (picture .ready 0 128).phase ≠ .loading :=
  ⟨paged_pageLaw, rfl, ⟨_, rfl⟩, by decide +kernel, by decide⟩

theorem holding_legal : (holding (0x43 :: List.replicate 255 0)).filter.Legal ∧ (holding []).filter.Legal ∧
    (holding (0x43 :: List.replicate 254 0)).filter.Legal ∧ live.filter.Legal := by
  refine ⟨?_, ?_, ?_, ?_⟩ <;> constructor <;> decide +kernel

theorem witness_rasterSymbolsLeaveInArrivalOrder :
    (holding []).filter.Legal ∧ (∀ straps, Instr.pixel 1 2 3 ≠ .powerUp straps) ∧ (holding []).receiving = true ∧
    (∃ t, exec (.pixel 1 2 3) (holding []) = .next t) ∧ draining.receiving = false :=
  ⟨holding_legal.2.1, (fun _ h => by cases h), rfl, ⟨_, rfl⟩, rfl⟩

theorem witness_frameCounterCountsFrameStarts :
    isHardReset .frameStart = false ∧ live.receiving = true ∧ draining.receiving = false ∧
    (∃ t, exec .frameStart { live with tracker := { Tracker.reset with frameCounter := 65535 } } = .next t) ∧
    isHardReset (.resetRelease 0) = true ∧ ∃ t, exec (.resetRelease 0) live = .next t :=
  ⟨rfl, rfl, rfl, ⟨_, rfl⟩, rfl, _, rfl⟩

/-- `live` with `n` reports waiting. -/
def waiting (n : Nat) : State := { live with reports := { ReportUnit.reset with queue := slots n } }

theorem witness_unacceptedUnicastsReachNoBlock :
    carried (.status .unicast 4 []) = some (.unicast, 4, codeStatus, []) ∧ (waiting 8).takesCommands = true ∧
    (waiting 8).session.Legal ∧ 8 ≤ (waiting 8).reports.queue.length ∧
    ((waiting 7).reports.queue.length < 8 ∧ (∀ x ∈ (waiting 7).reports.queue, x ≠ .reserved) ∧ codeStatus ≠ codeHello) ∧
    ({ live with session := Session.reset }.session.sessionState = .unsynced ∧ Session.reset.Legal) ∧
    ((waiting 7).session.sessionState = .synced ∧ (waiting 7).session.expected = some 5 ∧ (6 : Byte) ≠ 5 ∧
      (waiting 7).session.last ≠ some 6) ∧
    (waiting 7).session.last = some 4 ∧ (waiting 7).session.cached = some ⟨4, codeStatus, .ok, []⟩ := by
  refine ⟨rfl, by decide +kernel, witness_stepKeepsSessionLegal.1, by decide +kernel, by decide +kernel, ⟨rfl, ?_⟩, by decide +kernel, rfl, rfl⟩
  constructor <;> simp [Session.reset]

theorem witness_unknownAndMisfittingCommandsAreRefused :
    carried (.unknownCommandCode .unicast 5 0x42 []) = some (.unicast, 5, 0x42, []) ∧ (waiting 7).Expects 5 ∧
    (0x42 : Byte) ∉ listedCodes ∧ carried (.loadImage .unicast 5 [1, 0, 0]) = some (.unicast, 5, codeLoadImage, [1, 0, 0]) ∧
    codeLoadImage ∈ listedCodes ∧ lengthFits codeLoadImage [1, 0, 0] = false := by decide +kernel

theorem witness_otherBroadcastsAreOnlyCounted :
    let s : State := { armed .idle with session := { live.session with refusalTally := 255 } }
    s.takesCommands = true ∧ s.session.refusalTally ≤ 255 ∧ (armed .armedNext).takesCommands = true ∧
    (carried (.commitNow .broadcast 5 [0, 0]) = some (.broadcast, 5, codeCommit, [2, 0, 0]) ∧
      ¬(codeCommit = codeCommit ∧ ([2, 0, 0] : List Byte).length = 3 ∧ byteAt [2, 0, 0] 0 < 2) ∧
      ¬(codeCommit = codeClearAll ∧ ([2, 0, 0] : List Byte) = [])) ∧
    ([0, 0, 0] : List Byte).length = 3 ∧ (armed .armedNext).generations.commit.isArmed = true ∧
    byteAt [1, 0, 0] 0 = 1 ∧ horizonOf s (commitTarget [1, 0, 0]) = 0 ∧ horizonOf s (commitTarget [1, 4, 1]) = 1025 := by
  decide +kernel

theorem witness_helloSynchronisesTheSession :
    (waiting 7).takesCommands = true ∧ (waiting 7).reports.queue.length < 8 ∧
    (∀ x ∈ (waiting 7).reports.queue, x ≠ .reserved) ∧ (waiting 7).session.sessionState = .synced ∧
    (waiting 7).session.last ≠ some 255 ∧ ({ live with session := Session.reset } : State).session.sessionState = .unsynced := by
  decide +kernel

theorem witness_statusReturnsTheRecord : busy.Expects 5 ∧ (waiting 7).Expects 5 := by decide +kernel

theorem witness_setEventsReplacesTheMask : busy.Expects 5 ∧ (15 : Byte).toNat < 16 ∧ 16 ≤ (16 : Byte).toNat := by decide +kernel

theorem witness_readCommandsReturnWithoutChange :
    busy.Expects 5 ∧ busy.objects.stagedAt 63 = none ∧ (busy.objects.stagedAt 2).isSome = true ∧ (busy.objects.activeAt 2).isSome = true ∧
    busy.images.imageAt 127 = none ∧ busy.images.imageAt 6 = some (picture .loading 1 120) ∧
    (picture .loading 1 120).pageMap.head? = some 1 ∧ (picture .loading 1 120).pageMap.getLast? = some 1 ∧
    busy.palettes.writes[0]? = some ⟨2, 12, ⟨⟨900, 0, 0⟩, 15⟩⟩ ∧
    (∀ w ∈ busy.palettes.writes, ¬(w.palette = 7 ∧ w.index = 255)) := by decide +kernel

theorem witness_defineObjectWritesTheRecord :
    let p := bytes [63, 5, 0xFC, 0, 0x0F, 0xFF, 255, 7, 15, 1, 4, 0, 1, 15, 1, 1, 2, 1, 0, 0, 0, 0, 16, 0, 16, 0]
    busy.Expects 5 ∧ p.length = 26 ∧ busy.generations.commit = .idle ∧ defineInRange p = true ∧
    busy.images.imageAt (byteAt p 1) = some (picture .ready 0 128) ∧
    checkAnchorOption busy.objects (byteAt p 0) (defineFields p).anchor = .passed ∧
    ((armed .armedNext).Expects 5 ∧ (armed .armedNext).generations.commit ≠ .idle) ∧
    (byteAt (p.set 0 64) 0 = 64 ∧ defineInRange (p.set 0 64) = false) ∧
    (defineInRange (p.set 1 127) = true ∧ busy.images.imageAt (byteAt (p.set 1 127) 1) = none) ∧
    (defineInRange (p.set 1 6) = true ∧ busy.images.imageAt 6 = some (picture .loading 1 120) ∧
      (picture .loading 1 120).phase ≠ .ready) ∧
    (defineInRange (p.set 16 62) = true ∧ (defineFields (p.set 16 62)).anchor = some 62 ∧
      checkAnchor busy.objects 63 62 = .failed .noObject []) ∧
    (defineFields (p.set 15 0)).anchor = none := by decide +kernel

theorem witness_moveObjectSetsThePosition :
    busy.Expects 5 ∧ (armed .armedNext).Expects 5 ∧
    busy.generations.commit = .idle ∧ (armed .armedNext).generations.commit ≠ .idle ∧
    (let p := bytes [3, 0xFC, 0, 0x0F, 0xFF];
      p.length = 5 ∧ byteAt p 0 < 64 ∧ s16At p 1 = -1024 ∧ s16At p 3 = 4095) ∧
    busy.objects.stagedAt 3 = some (record 5 (some 2)) ∧ s16At (bytes [3, 0xFB, 0xFF, 0, 0]) 1 = -1025 ∧
    byteAt (bytes [63, 0, 0, 0, 0]) 0 = 63 ∧ busy.objects.stagedAt 63 = none := by decide +kernel

theorem witness_setObjectAttrAppliesItsItems :
    let p := bytes [3, 0x04, 0x01, 5, 2]
    busy.Expects 5 ∧ lengthFits codeSetObjectAttr p = true ∧ busy.generations.commit = .idle ∧ attrInRange p = true ∧
    busy.objects.stagedAt (byteAt p 0) = some (record 5 (some 2)) ∧ attrImage p = some 5 ∧
    busy.images.imageAt 5 = some (picture .ready 0 128) ∧
    checkAnchorOption busy.objects (byteAt p 0) (attrAnchor p) = .passed ∧
    (let q := bytes [3, 0, 0];
      lengthFits codeSetObjectAttr q = true ∧ attrInRange q = true ∧ attrImage q = none ∧ u16At q 1 = 0) ∧
    ((armed .armedNext).Expects 5 ∧ (armed .armedNext).generations.commit ≠ .idle) ∧
    (let q := bytes [3, 0x0C, 0, 2]; lengthFits codeSetObjectAttr q = true ∧ attrInRange q = false) ∧
    (let q := bytes [63, 0, 0];
      lengthFits codeSetObjectAttr q = true ∧ attrInRange q = true ∧ busy.objects.stagedAt (byteAt q 0) = none) ∧
    (let q := bytes [3, 0, 1, 127];
      lengthFits codeSetObjectAttr q = true ∧ attrInRange q = true ∧ attrFlag q 0 = true ∧ busy.images.imageAt 127 = none) ∧
    (attrFlag (bytes [3, 0, 1, 6]) 0 = true ∧ busy.images.imageAt 6 = some (picture .loading 1 120) ∧
      (picture .loading 1 120).phase ≠ .ready) ∧
    (let q := bytes [3, 0x04, 0x00, 3];
      lengthFits codeSetObjectAttr q = true ∧ attrInRange q = true ∧ attrFlag q 0 = false ∧ attrFlag q 10 = true ∧
        checkAnchor busy.objects 3 3 = .failed .cycle [3]) := by decide +kernel

theorem witness_deleteObjectFreesTheRecord :
    busy.Expects 5 ∧ (busy.objects.stagedAt 3 = some (record 5 (some 2)) ∧ ¬∃ j o, busy.objects.stagedAt j = some o ∧ o.anchor = some 3) ∧
    busy.objects.stagedAt 63 = none ∧
    busy.objects.stagedAt 2 ≠ none ∧ ∃ j o, busy.objects.stagedAt j = some o ∧ o.anchor = some 2 := by
  refine ⟨by decide +kernel, ⟨by decide +kernel, ?_⟩, by decide +kernel, by decide +kernel, 3, _, stagedAt_tables 3, rfl⟩
  rintro ⟨j, o, h, e⟩
  change tables.stagedAt j = some o at h
  rw [stagedAt_tables] at h
  split_ifs at h <;> cases h <;> simp [record] at e

theorem witness_anchorChecksKeepChainsShort :
    ChainLaw tables.stagedAt ∧ (63 : Nat) < 64 ∧ (record 5 (some 3)).anchor = some 3 ∧
    (tables.stagedAt 3 ≠ none ∧ passesThrough tables.stagedAt 63 3 3 = false ∧
      depthOf tables.stagedAt 3 3 + 1 + heightOf tables.stagedAt 3 63 = 2) ∧
    passesThrough tables.stagedAt 2 3 3 = true ∧
    (tables.stagedAt 63 = none ∧ passesThrough tables.stagedAt 63 3 63 = true) ∧
    (tables.stagedAt 62 = none ∧ (62 : Nat) ≠ 63) ∧
    (ChainLaw (chain (some 20)).stagedAt ∧ (chain (some 20)).stagedAt 12 ≠ none ∧
      passesThrough (chain (some 20)).stagedAt 30 3 12 = false ∧
      depthOf (chain (some 20)).stagedAt 3 12 + 1 + heightOf (chain (some 20)).stagedAt 3 30 = 4) ∧
    depthOf (chain (some 20)).stagedAt 3 11 + 1 + heightOf (chain (some 20)).stagedAt 3 30 = 3 := by
  refine ⟨tables_anchors.1, by decide, rfl, by decide +kernel, by decide +kernel, by decide +kernel, by decide +kernel, ⟨?_, ?_⟩, ?_⟩
  · intro i o h
    have all : ∀ j : Fin 64, rootWithin (chain (some 20)).stagedAt 3 j.val = true ∨ (chain (some 20)).stagedAt j.val = none := by
      decide +kernel
    by_cases b : i < 64
    · rcases all ⟨i, b⟩ with k | k
      · exact k
      · rw [h] at k; cases k
    · simp [ObjectTable.stagedAt, Vector.getD, Array.getD, b] at h
  · decide +kernel
  · decide +kernel

theorem witness_commitArmsInIdle :
    busy.generations.commit = .idle ∧ busy.Expects 5 ∧ busy.takesCommands = true ∧ ([0, 0] : List Byte).length = 2 ∧
    ((1 : Word16) - busy.tracker.frameCounter).toNat = 1 ∧ ((1024 : Word16) - busy.tracker.frameCounter).toNat = 1024 := by
  decide +kernel

theorem witness_commitRefusalsChangeNothing :
    (armed .armedNext).Expects 5 ∧ busy.Expects 5 ∧ (drawing false 3 0).Expects 5 ∧
    (armed .armedNext).generations.commit ≠ .idle ∧ 2 < (3 : Byte).toNat ∧
    ((0 : Word16) - busy.tracker.frameCounter).toNat = 0 ∧ 1024 < ((1025 : Word16) - busy.tracker.frameCounter).toNat ∧
    (drawing false 3 0).generations.commit = .idle ∧ (drawing false 3 0).tracker.rasterState = .locked := by decide +kernel

/-- `busy` with COMMIT events enabled and `n` reports waiting. -/
def reporting (n : Nat) : State :=
  { busy with
    session := { busy.session with mask := ⟨false, true, false, false⟩ }
    reports := { ReportUnit.reset with queue := slots n } }

theorem witness_commitNowAppliesAtOnce :
    (reporting 5).Expects 5 ∧ (reporting 6).Expects 5 ∧ (reporting 5).generations.commit = .idle ∧
    (reporting 5).tracker.rasterState ≠ .locked ∧ (reporting 5).palettes.Legal ∧ busy.session.mask.commit = false ∧
    (reporting 5).session.mask.commit = true ∧ (reporting 5).reports.events = PendingEvents.empty ∧
    (reporting 5).reports.queue.length ≤ 5 ∧ 6 ≤ (reporting 6).reports.queue.length := by
  refine ⟨by decide +kernel, by decide +kernel, rfl, by decide, busy_palettes, ?_⟩
  decide +kernel

theorem witness_cancelCommitWithdrawsTheCommit : (armed (.armedAt 7)).Expects 5 ∧ busy.Expects 5 ∧
    (armed (.armedAt 7)).generations.commit ≠ .idle ∧ busy.generations.commit = .idle ∧
    ([0] : List Byte) ≠ [] := by decide +kernel

theorem witness_setModeStagesModeAndFill :
    busy.Expects 5 ∧ (armed .armedNext).Expects 5 ∧ Colour.InRange ⟨1023, 1023, 1023⟩ ∧ (2 : Byte) = OutputMode.backdrop.code ∧ 2 < (3 : Byte).toNat ∧
    ¬Colour.InRange ⟨0, 1024, 0⟩ ∧ (armed .armedNext).generations.commit ≠ .idle := by
  simp only [Colour.InRange]; decide +kernel

theorem witness_discardCopiesTheActiveSide : busy.Expects 5 ∧ (armed .armedNext).Expects 5 ∧
    busy.generations.commit = .idle ∧ (armed .armedNext).generations.commit ≠ .idle := by decide +kernel

theorem witness_clearAllClearsAndArmsOrApplies :
    (drawing true 3 5).Expects 5 ∧ busy.Expects 5 ∧ (drawing true 3 5).tracker.rasterState = .locked ∧ (drawing true 3 5).takesCommands = true ∧
    busy.tracker.rasterState ≠ .locked ∧ busy.takesCommands = true ∧ busy.session.mask.commit = false ∧
    ((reporting 5).Expects 5 ∧ (reporting 5).tracker.rasterState ≠ .locked ∧ (reporting 5).session.mask.commit = true ∧
      (reporting 5).reports.events = PendingEvents.empty ∧ (reporting 5).reports.queue.length ≤ 5) ∧
    (reporting 6).Expects 5 ∧ 6 ≤ (reporting 6).reports.queue.length := by decide +kernel

theorem witness_frameStartAppliesWhenDue :
    busy.receiving = true ∧ busy.palettes.Legal ∧ (armed .armedNext).generations.commit = .armedNext ∧
    (armed (.armedAt 1)).generations.commit = .armedAt (busy.tracker.frameCounter + 1) ∧
    (armed (.armedAt 2)).generations.commit ≠ .armedAt (busy.tracker.frameCounter + 1) ∧
    (let s : State := { armed .armedNext with tracker := { lockedAt false 8 16 with inFrame := false } };
      s.receiving = true ∧ s.filter.reception = .none ∧ s.tracker.rasterState = .locked ∧ s.tracker.inFrame = false) ∧
    (acquiringAt false 8 16 none).rasterState = .acquiring :=
  ⟨rfl, busy_palettes, rfl, rfl, by decide +kernel, ⟨rfl, rfl, rfl, rfl⟩, rfl⟩

theorem witness_createImageTakesPagesFromTheHead :
    let p := bytes [127, 0, 16, 0, 16, 8]
    busy.Expects 5 ∧ p.length = 6 ∧ busy.images.imageAt 127 = none ∧ byteAt p 5 = 8 ∧ u16At p 1 = 16 ∧
    (16 * 8 + 7) / 8 * 16 = 256 ∧ (256 + 127) / 128 = busy.images.freePages.length ∧
    busy.images.imageAt 5 ≠ none ∧ u16At (bytes [127, 1, 1, 0, 1, 4]) 1 = 257 ∧
    busy.images.freePages.length < ((1 * 4 + 7) / 8 * 257 + 127) / 128 := by decide +kernel

theorem witness_loadImageWritesAtTheCursor :
    live.Expects 5 ∧ ImageStore.Legal paged ∧
    (let st := paged.setEntry 5 ⟨some (picture .loading 0 120), 0, 0⟩;
      st.imageAt 5 = some (picture .loading 0 120) ∧ st.Legal) ∧
    paged.imageAt 127 = none ∧ paged.imageAt 5 = some (picture .ready 0 128) ∧
    120 + (List.replicate 8 (1 : Byte)).length = (picture .loading 0 120).size ∧
    (picture .loading 0 120).size < 120 + (List.replicate 9 (1 : Byte)).length := by
  refine ⟨by decide +kernel, witness_stepKeepsImageStoreLegal.1, ⟨by decide +kernel, ?_, ?_, by decide +kernel⟩, by decide +kernel,
    by decide +kernel, by decide +kernel, by decide +kernel⟩
  · intro p
    have e := pageUses_setEntry paged 5 (by omega) ⟨some (picture .loading 0 120), 0, 0⟩ p
    have f : (paged.entry 5) = ⟨some (picture .ready 0 128), 0, 0⟩ := by decide +kernel
    rw [f, paged_pageLaw p] at e
    exact Nat.add_right_cancel e
  · intro h im e
    simp only [ImageStore.imageAt, entry_setEntry paged 5 h _ (by omega)] at e
    split_ifs at e
    · cases e; constructor <;> decide
    · exact paged_entriesLegal h im e

theorem witness_restartImageReturnsToLoading :
    live.Expects 5 ∧ ([5, 0] : List Byte).length ≠ 1 ∧
    (paged.entry 5 = ⟨some (picture .ready 0 128), 0, 0⟩ ∧ 0 < (store.entry 7).activeRefs) ∧
    (let e := (store.setEntry 5 ⟨some (picture .ready 0 128), 2, 0⟩).entry 5;
      e.activeRefs = 0 ∧ 0 < e.stagedRefs) ∧
    store.entry 6 = ⟨some (picture .loading 1 120), 0, 0⟩ ∧ (picture .loading 1 120).phase ≠ .ready := by decide +kernel

theorem witness_releaseImageRetiresOrFrees :
    busy.Expects 5 ∧ paged.entry 5 = ⟨some (picture .ready 0 128), 0, 0⟩ ∧
    store.entry 6 = ⟨some (picture .loading 1 120), 0, 0⟩ ∧
    (store.setEntry 5 ⟨some (picture .ready 0 128), 0, 1⟩).entry 5 = ⟨some (picture .ready 0 128), 0, 1⟩ ∧
    0 < (store.entry 5).stagedRefs ∧ store.entry 7 = ⟨some (picture .retiring 2 128), 0, 1⟩ ∧
    (store.entry 127).image = none ∧ (store.entry 127).stagedRefs = 0 := by decide +kernel

theorem witness_writePaletteJoinsThePendingList :
    let p := bytes ([7, 255] ++ [3, 255, 3, 255, 3, 255, 15])
    let l := (List.range 256).map fun i => (⟨0, i, ⟨⟨0, 0, 0⟩, 0⟩⟩ : PaletteWrite)
    busy.Expects 5 ∧ lengthFits codeWritePalette p = true ∧ busy.palettes.Legal ∧ (p.length - 2) / 7 = 1 ∧
    byteAt p 0 = 7 ∧ byteAt p 1 + 1 - 1 = 255 ∧ u16At p 2 = 1023 ∧ byteAt p 8 = 15 ∧ l.length + 0 = 256 ∧
    PaletteUnit.Legal { PaletteUnit.reset with writes := l } := by
  refine ⟨by decide +kernel, by decide +kernel, busy_palettes, by decide +kernel, by decide +kernel, by decide +kernel,
    by decide +kernel, by decide +kernel, by simp, ?_⟩
  constructor
  · exact busy_palettes.entries
  · simp [PaletteEntry.InRange, Colour.InRange]
  · simp
  · simp only [List.pairwise_map]
    exact List.nodup_range.imp fun h e => h e.2

theorem witness_frameStartMovesTheRasterState :
    (drawing true 8 16).receiving = true ∧ (drawing true 8 16).tracker.rasterState = .locked ∧
    (drawing true 8 16).tracker.inFrame = true ∧ (drawing true 8 16).compositor.compositing = true ∧
    ({ lockedAt false 8 16 with inFrame := false } : Tracker).rasterState = .locked ∧
    (acquiringAt false 8 16 none).rasterState = .acquiring ∧ live.tracker.rasterState = .noSignal ∧
    ({ lockedAt false 8 16 with rasterState := .disrupted } : Tracker).rasterState = .disrupted ∧
    (drawing true 8 16).filter.Legal := ⟨rfl, rfl, rfl, rfl, rfl, rfl, rfl, rfl, holding_legal.2.2.2⟩

theorem witness_lockedSymbolsAreChecked :
    (drawing true 8 16).receiving = true ∧ (drawing true 8 16).CompositorLegal ∧
    (drawing true 8 16).tracker.locked = some ⟨16, 8⟩ ∧ (drawing true 8 16).tracker.inLine = true ∧
    (drawing true 8 16).tracker.pixelsInLine = 16 ∧ (drawing true 8 15).tracker.pixelsInLine < 16 ∧
    (drawing false 8 16).tracker.linesBegun = 8 ∧ (drawing false 7 16).tracker.linesBegun < 8 ∧
    ({ lockedAt false 8 16 with inFrame := false } : Tracker).inFrame = false ∧
    (drawing true 8 16).compositor.compositing = true ∧ (drawing true 8 16).filter.Legal ∧ (drawing true 8 16).HoldingLegal :=
  ⟨rfl, drawing_compositor _ _ _, rfl, rfl, rfl, by decide, rfl, by decide, rfl, rfl, holding_legal.2.2.2, drawing_holding _ _ _⟩

theorem witness_symbolsMoveThePosition :
    (drawing true 8 15).tracker.Legal ∧ (drawing true 8 16).tracker.Legal ∧ (drawing false 7 16).tracker.Legal ∧
    (drawing false 8 16).tracker.Legal ∧ live.tracker.Legal ∧
    (drawing true 8 15).tracker.rasterState = .locked ∧ (drawing true 8 15).tracker.inFrame = true ∧
    (drawing false 8 16).compositor.compositing = true ∧ (drawing false 8 16).filter.Legal ∧ live.compositor.compositing = false ∧
    (blanking.Legal ∧ blanking.rasterState = .locked ∧ blanking.inFrame = false ∧ blanking.inLine = false) ∧
    live.filter.reception ≠ .holding := by
  refine ⟨?_, ?_, ?_, ?_, ?_, rfl, rfl, rfl, holding_legal.2.2.2, rfl, ⟨?_, rfl, rfl, rfl⟩, by decide⟩ <;> constructor <;>
    simp [drawing, live, lockedAt, blanking, State.reset, Tracker.reset, Geometry.InRange]

theorem witness_measuredFramesLock :
    ({ live with tracker := acquiringAt true 4096 4096 (some 16) } : State).receiving = true ∧
    (acquiringAt true 4096 4096 (some 16)).Legal ∧ (acquiringAt true 1 16 none).Legal ∧
    (acquiringAt false 8 16 (some 16)).Legal ∧ ({ acquiringAt false 8 16 (some 16) with inFrame := false } : Tracker).Legal ∧
    (acquiringAt false 7 16 (some 16)).linesBegun < 8 ∧ (acquiringAt false 8 16 (some 16)).candidate = some ⟨16, 8⟩ ∧
    (acquiringAt false 8 16 (some 16)).matchCount = 1 ∧ (acquiringAt false 9 16 (some 16)).candidate ≠ some ⟨16, 9⟩ ∧
    ({ acquiringAt false 8 16 (some 16) with matchCount := 0 } : Tracker).Legal ∧
    (let s : State := { live with tracker := acquiringAt false 8 16 (some 16) }; s.filter.Legal ∧ s.CompositorLegal) ∧
    (Tracker.Legal { acquiringAt true 8 16 (some 16) with irregular := true } ∧ (symbolOf .lineEnd).isSome = true ∧
      Instr.lineEnd ≠ .frameEnd ∧ (acquiringAt true 1 16 none).lengthMark = none) ∧
    ((symbolOf .idle).isSome = true ∧ rasterOf .idle = none ∧ live.filter.reception ≠ .holding) := by
  refine ⟨rfl, ?_, ?_, ?_, ?_, by decide, rfl, rfl, by decide, ?_, ⟨holding_legal.2.2.2, ?_⟩, ⟨?_, rfl, by decide, rfl⟩,
    ⟨rfl, rfl, by decide⟩⟩ <;> constructor <;>
    simp [acquiringAt, lockedAt, live, State.reset, Compositor.reset, Tracker.reset, Geometry.InRange]

theorem live_compositor : live.CompositorLegal := by
  constructor <;> simp [live, State.reset, Compositor.reset]

theorem witness_pixelsPassUnchangedWhileFlagIsClear :
    live.receiving = true ∧ live.CompositorLegal ∧ live.compositor.compositing = false ∧
    live.generations.activeMode = .pass ∧ live.tracker.rasterState ≠ .locked ∧ (drawing false 3 0).CompositorLegal ∧
    (drawing false 3 0).compositor.compositing = true ∧ (drawing false 3 0).tracker.inLine = false ∧
    ((drawing true 8 16).receiving = true ∧ (drawing true 8 16).CompositorLegal ∧ (drawing true 8 16).compositor.compositing = true ∧
      (drawing true 8 16).tracker.inLine = true ∧ (drawing true 8 16).tracker.locked = some ⟨16, 8⟩ ∧
      (drawing true 8 16).tracker.pixelsInLine = 16) :=
  ⟨rfl, live_compositor, rfl, rfl, by decide, drawing_compositor _ _ _, rfl, rfl, rfl, drawing_compositor _ _ _, rfl, rfl, rfl, rfl⟩

theorem witness_compositedPixelsAreBlended :
    let s : State := { drawing true 4 15 with compositor := { Compositor.reset with
      compositing := true, candidates := [⟨2, 4, 16, 12, 0⟩] } }
    s.receiving = true ∧ s.tracker.rasterState = .locked ∧ s.tracker.locked = some ⟨16, 8⟩ ∧ s.tracker.inLine = true ∧
    s.tracker.pixelsInLine < 16 ∧ s.objects.activeAt 2 = some ⟨record 5 none, 4, 3⟩ ∧
    s.images.imageAt 5 = some (picture .ready 0 128) ∧
    (∀ k ∈ ({ s with tracker := lockedAt true 4 3 }).compositor.candidates, ¬(k.xa ≤ 3 ∧ 3 < k.xb)) ∧
    (15 : Nat) * 0 < 15 ∧ (14 : Nat) * 1 < 15 := by decide +kernel

theorem witness_lineStartAdmitsThePrefix :
    (drawing false 7 16).receiving = true ∧ (drawing false 7 16).tracker.inFrame = true ∧
    (drawing false 7 16).tracker.inLine = false ∧ (drawing false 7 16).tracker.linesBegun < 8 ∧
    ({ drawing false 7 16 with images := paged } : State).images.EntriesLegal ∧ (drawing false 7 16).objects.RecordsInRange :=
  ⟨rfl, rfl, rfl, by decide, paged_entriesLegal, tables_inRange⟩

theorem witness_packetSymbolsAreHeldOrPassed :
    live.receiving = true ∧ live.filter.Legal ∧ live.addressed = true ∧
    (live.tracker.inLine = false ∧ (acquiringAt true 8 16 none).rasterState ≠ .locked) ∧
    (drawing true 3 5).tracker.inLine = true ∧ ({ live with unitAddress := 15 } : State).addressed = false ∧
    ((holding []).filter.Legal ∧ (holding []).filter.reception = .holding ∧ (holding []).filter.byteCount = 0) ∧
    ((holding (0x43 :: List.replicate 254 0)).filter.Legal ∧ (holding (0x43 :: List.replicate 254 0)).filter.byteCount = 255) ∧
    (holding (0x43 :: List.replicate 255 0)).filter.Legal ∧ (holding (0x43 :: List.replicate 255 0)).filter.byteCount = 256 ∧
    (live.drains = [] ∧ live.filter.holdQueue = []) ∧
    (draining.drains ≠ [] ∧ draining.filter.holdQueue ≠ [] ∧ draining.filter.Legal ∧
      ({ draining with fwdInUp := true } : State).receiving = true) ∧
    ((holding []).drains = [] ∧ (holding []).filter.holdQueue = ⟨.packetStart, true⟩ :: []) ∧
    (holding (0x43 :: List.replicate 255 0)).filter.holdQueue.length ≤ 258 ∧
    ∃ t, exec .packetEnd (holding (0x43 :: List.replicate 255 0)) = .next t := by
  refine ⟨rfl, holding_legal.2.2.2, by decide, ⟨rfl, by decide⟩, rfl, by decide, ⟨holding_legal.2.1, rfl, rfl⟩,
    ⟨holding_legal.2.2.1, by decide +kernel⟩, holding_legal.1, by decide +kernel, ⟨rfl, rfl⟩,
    ⟨by decide, by decide, ?_, rfl⟩, ⟨rfl, rfl⟩, by decide +kernel, _, rfl⟩
  constructor <;> decide +kernel

theorem witness_packetEndDecidesTheHeldPacket :
    let packet (dest : Byte) := packetBytesOf dest 5 codeStatus []
    ((holding (packet 3)).receiving = true ∧ (holding (packet 3)).filter.Legal ∧ (holding (packet 3)).HoldingLegal ∧
      (holding (packet 3)).filter.reception = .holding) ∧
    heldBytes (holding (packet 3)).filter.holdQueue = packet 3 ∧ checkPacket (packet 3) = .good 3 5 codeStatus [] ∧
    checkPacket (packet 15) = .good 15 5 codeStatus [] ∧ checkPacket (packet 4) = .good 4 5 codeStatus [] ∧
    checkPacket ((packet 3).set 2 6) = .badCrc ∧ checkPacket ((packet 3).take 7) = .badLength := by
  refine ⟨⟨rfl, ?_, fun _ => ⟨rfl, by decide⟩, rfl⟩, ?_⟩
  · constructor <;> decide +kernel
  · decide +kernel

theorem witness_openPacketsEndCountedOnce :
    let past : Filter := { Filter.reset with reception := .overlong, byteCount := 257 }
    ((holding [0x43]).receiving = true ∧ (holding [0x43]).filter.reception = .holding ∧ (rasterOf .lineEnd).isSome = true) ∧
    (holding (0x43 :: List.replicate 255 0)).filter.Legal ∧
    (past.Legal ∧ past.reception = .overlong ∧ past.reception ≠ .holding) ∧
    (live.filter.Legal ∧ live.filter.reception = .none) ∧
    (Filter.Legal { Filter.reset with reception := .unexamined }) ∧ ¬(holding [0x43]).ApplyDue ∧ (armed .armedNext).ApplyDue ∧
    (decide (holding [0x43]).ApplyDue, decide (past.reception = .overlong)) = (false, true) := by
  refine ⟨⟨rfl, rfl, rfl⟩, holding_legal.1, ⟨?_, rfl, by decide⟩, ⟨holding_legal.2.2.2, rfl⟩, ?_, by decide, .inl rfl, by decide⟩ <;>
    constructor <;> decide +kernel

theorem witness_forwardLinkDrainsAndReturns :
    (holding [0x43]).receiving = true ∧ 0 < (holding [0x43]).filter.holdQueue.length - (holding [0x43]).drains.sum ∧
    (live.filter.holdQueue.length - live.drains.sum = 0 ∧ live.drains = [] ∧ live.fwdOutUp = true) ∧
    (State.reset.resetAsserted = false ∧ State.reset.fwdInUp = false ∧ State.reset.drains = []) ∧
    (draining.fwdInUp = false ∧ draining.drains = 2 :: [] ∧ draining.receiving = false) ∧
    ({ draining with fwdInUp := true } : State).receiving = true ∧ ({ draining with drains := [1, 1] } : State).drains = 1 :: [1] ∧
    ((drawing true 8 16).receiving = true ∧ (drawing true 8 16).compositor.compositing = true ∧ (drawing true 8 16).filter.Legal) ∧
    ({ live with resetAsserted := true } : State).resetAsserted = true ∧
    (draining.filter.holdQueue = ⟨.lineEnd, false⟩ :: [⟨.frameEnd, false⟩] ∧ (1 : Nat) < 2) := by
  refine ⟨by decide +kernel, by decide +kernel, by decide +kernel, by decide +kernel, by decide +kernel, by decide +kernel, by decide +kernel,
    ⟨rfl, rfl, holding_legal.2.2.2⟩, rfl, rfl, by decide⟩

theorem witness_hardResetRestoresEveryBlock :
    (∃ t, exec (.resetRelease 15) (drawing true 3 5) = .next t) ∧ ∃ t, exec (.powerUp 0) draining = .next t := ⟨⟨_, rfl⟩, _, rfl⟩

theorem witness_relayQueueReceivesPackets :
    lanes.resetAsserted = false ∧ lanes.reports.inputLaneUp = true ∧
    (∀ p, lanes.reports.relay.getLast? = some p → p.whole = true) ∧ 4 ≤ lanes.reports.relay.length ∧
    loaded.relay = List.replicate 3 ⟨List.replicate 64 7, true⟩ ++ [⟨List.replicate 64 7, false⟩] ∧
    (List.replicate 63 (7 : Byte)).length < 64 ∧ (List.replicate 7 (7 : Byte)).length < 8 ∧
    State.reset.resetAsserted = false ∧ State.reset.reports.inputLaneUp = false ∧
    (let l : List RelayPlace := [⟨List.replicate 8 1, false⟩]; l = [] ++ [⟨List.replicate 8 1, false⟩] ∧ 8 ≤ (List.replicate 8 (1 : Byte)).length) := by
  refine ⟨rfl, rfl, ?_, by decide, rfl, by decide, by decide, rfl, rfl, rfl, by decide⟩
  intro p h
  cases h; rfl

theorem witness_transmitterServesTheQueuesInTurn :
    ((serving .relay).ArbiterSettled ∧ (serving .relay).resetAsserted = false) ∧
    lanes.resetAsserted = false ∧ lanes.reports.outputLaneUp = true ∧ lanes.upstreamRoom = true ∧
    lanes.reports.transmitter = .free ∧ lanes.reports.reportHead.isSome = true ∧ lanes.reports.relayHead.isSome = true ∧
    ({ lanes.reports with relay := [] } : ReportUnit).relayHead = none ∧ ({ lanes.reports with queue := [] } : ReportUnit).reportHead = none ∧
    (serving .relay).reports.transmitter = .sending .relay ∧
    (serving .relay).reports.relay = ⟨List.replicate 8 7, true⟩ :: List.replicate 3 ⟨List.replicate 8 7, true⟩ ∧
    (serving .report).reports.queue = .filled [] :: slots 1 ∧
    ((lost .relay).resetAsserted = false ∧ (lost .relay).reports.transmitter = .abandoned .relay ∧ (lost .relay).upstreamRoom = true) ∧
    ({ (lost .report).reports with outputLaneUp := true } : ReportUnit).transmitter = .abandoned .report ∧
    loaded.queue = .filled [] :: slots 6 ∧ loaded.events.first = some (.commit ⟨43, 0⟩) ∧
    live.upstreamRoom = false ∧ live.reports.outputLaneUp = false ∧
    (carried (.status .unicast 5 []) = some (.unicast, 5, codeStatus, []) ∧
      (let s : State := { lanes with reports := { lanes.reports with queue := [], relay := [] } };
        s.takesCommands = true ∧ s.reports.queue = [] ∧ s.reports.transmitter = .free ∧ s.reports.relayHead = none)) :=
  ⟨⟨witness_stepKeepsReportUnitLegal.2.1.1, rfl⟩, by decide +kernel⟩

theorem witness_eventsAreBuiltOrWait :
    loaded.Legal ∧ EventMask.has ⟨false, true, false, false⟩ (Event.commit ⟨1, 0⟩).kind = true ∧
    EventMask.has ⟨true, false, true, true⟩ (Event.commit ⟨1, 0⟩).kind = false ∧ 7 ≤ loaded.queue.length ∧
    ReportUnit.Legal { loaded with queue := slots 6, events := PendingEvents.empty } ∧ (slots 6).length ≤ 6 ∧
    ((reporting 0).reports.Legal ∧ (reporting 0).session.mask.has .commit = true ∧ (reporting 0).reports.queue = []) ∧
    slots 6 ≠ [] := by
  refine ⟨witness_stepKeepsReportUnitLegal.1.1, rfl, rfl, by decide, ?_, by decide, ⟨?_, rfl, rfl⟩, by decide⟩
  · refine ⟨by decide +kernel, by decide +kernel, by decide +kernel, by decide +kernel, by decide +kernel, by decide +kernel, ?_, ?_⟩
    · intro q h; cases h; exact ⟨rfl, rfl⟩
    · intro q h; cases h
  · refine ⟨by decide +kernel, by decide +kernel, by decide +kernel, by decide +kernel, by decide +kernel, by decide +kernel, ?_, ?_⟩ <;>
      intro q h <;> cases h

end Sys2Proof.Tests
end

section
/-! Anchor chains (R6, R13, R14): the id that a number of anchors leads to, what depth, height and the search for a cycle say of it,
and what becomes of the chains when one record is replaced. -/

namespace Sys2Proof.Machine

/-- The id reached from `i` by following `k` anchors. -/
def followAnchors (look : Nat → Option ObjectFields) : Nat → Nat → Option Nat
  | 0, i => some i
  | k + 1, i => ((look i).bind ObjectFields.anchor).bind (followAnchors look k)

section
variable {look : Nat → Option ObjectFields} {i a : Nat} {o : ObjectFields}

/-! ### One equation for each kind of record a chain meets -/

theorem rootWithin_free (h : look i = none) (n : Nat) : rootWithin look n i = false := by
  cases n <;> simp [rootWithin, h]

theorem rootWithin_root (h : look i = some o) (ha : o.anchor = none) (n : Nat) : rootWithin look n i = true := by
  cases n <;> simp [rootWithin, h, ha]

theorem rootWithin_zero_anchored (h : look i = some o) (ha : o.anchor = some a) : rootWithin look 0 i = false := by
  simp [rootWithin, h, ha]

theorem rootWithin_succ_anchored (h : look i = some o) (ha : o.anchor = some a) (n : Nat) :
    rootWithin look (n + 1) i = rootWithin look n a := by
  simp [rootWithin, h, ha]

theorem depthOf_root (h : look i = some o) (ha : o.anchor = none) (n : Nat) : depthOf look n i = 0 := by
  cases n <;> simp [depthOf, h, ha]

theorem depthOf_succ_anchored (h : look i = some o) (ha : o.anchor = some a) (n : Nat) :
    depthOf look (n + 1) i = depthOf look n a + 1 := by
  simp [depthOf, h, ha]

theorem followAnchors_succ_anchored (h : look i = some o) (ha : o.anchor = some a) (k : Nat) :
    followAnchors look (k + 1) i = followAnchors look k a := by
  simp [followAnchors, h, ha]

/-- A chain goes on only from a DEFINED record with an anchor. -/
theorem followAnchors_succ {k j : Nat} (h : followAnchors look (k + 1) i = some j) :
    ∃ o a, look i = some o ∧ o.anchor = some a ∧ followAnchors look k a = some j := by
  simp only [followAnchors, Option.bind_eq_some_iff] at h
  obtain ⟨a, ⟨o, ho, ha⟩, hk⟩ := h
  exact ⟨o, a, ho, ha, hk⟩

theorem mem_anchoredTo {j : Nat} : j ∈ anchoredTo look i ↔ j < 64 ∧ ∃ o, look j = some o ∧ o.anchor = some i := by
  unfold anchoredTo Config.objectCount
  rw [List.mem_filter, List.mem_range]
  cases look j <;> simp

theorem depthOf_le (look : Nat → Option ObjectFields) (n i : Nat) : depthOf look n i ≤ n := by
  induction n generalizing i with
  | zero => exact Nat.le_refl 0
  | succ n ih =>
    unfold depthOf
    split
    · omega
    · split
      · omega
      · exact Nat.succ_le_succ (ih _)

theorem heightOf_le (look : Nat → Option ObjectFields) (n i : Nat) : heightOf look n i ≤ n := by
  induction n generalizing i with
  | zero => exact Nat.le_refl 0
  | succ n ih =>
    refine List.max_le_of_forall_le _ _ fun x hx => ?_
    obtain ⟨j, -, rfl⟩ := List.mem_map.mp hx
    exact Nat.succ_le_succ (ih j)

/-! ### Roots and depths -/

theorem rootWithin_isSome {n : Nat} (h : rootWithin look n i = true) : ∃ o, look i = some o := by
  cases hi : look i with
  | none => rw [rootWithin_free hi] at h; cases h
  | some o => exact ⟨o, rfl⟩

/-- On a chain that ends within `n` links, the depth is the least number of links it ends within. -/
theorem rootWithin_iff_depthOf_le {n : Nat} (h : rootWithin look n i = true) (m : Nat) :
    rootWithin look m i = true ↔ depthOf look n i ≤ m := by
  induction n generalizing i m with
  | zero =>
    obtain ⟨o, ho⟩ := rootWithin_isSome h
    cases ha : o.anchor with
    | none => simp [rootWithin_root ho ha, depthOf_root ho ha]
    | some a => rw [rootWithin_zero_anchored ho ha] at h; cases h
  | succ n ih =>
    obtain ⟨o, ho⟩ := rootWithin_isSome h
    cases ha : o.anchor with
    | none => simp [rootWithin_root ho ha, depthOf_root ho ha]
    | some a =>
      rw [rootWithin_succ_anchored ho ha] at h
      rw [depthOf_succ_anchored ho ha]
      cases m with
      | zero => simp [rootWithin_zero_anchored ho ha]
      | succ m => rw [rootWithin_succ_anchored ho ha, ih h, Nat.succ_le_succ_iff]

theorem rootWithin_mono {n m : Nat} (h : rootWithin look n i = true) (hm : n ≤ m) : rootWithin look m i = true :=
  (rootWithin_iff_depthOf_le h m).mpr ((depthOf_le look n i).trans hm)

/-- A chain's record `k` links up ends within `m` links exactly where the chain ends within `k + m`. -/
theorem rootWithin_followAnchors {k j : Nat} (h : followAnchors look k i = some j) (m : Nat) :
    rootWithin look (k + m) i = rootWithin look m j := by
  induction k generalizing i with
  | zero => cases h; rw [Nat.zero_add]
  | succ k ih =>
    obtain ⟨o, a, ho, ha, hk⟩ := followAnchors_succ h
    rw [Nat.succ_add, rootWithin_succ_anchored ho ha, ih hk]

/-- Following a chain goes on from where it has led. -/
theorem followAnchors_add {k j : Nat} (h : followAnchors look k i = some j) (m : Nat) :
    followAnchors look (k + m) i = followAnchors look m j := by
  induction k generalizing i with
  | zero => cases h; rw [Nat.zero_add]
  | succ k ih =>
    obtain ⟨o, a, ho, ha, hk⟩ := followAnchors_succ h
    rw [Nat.succ_add, followAnchors_succ_anchored ho ha, ih hk]

/-- A chain that ends within `n` links has no record more than `n` links up. -/
theorem followAnchors_le {n k j : Nat} (hr : rootWithin look n i = true) (h : followAnchors look k i = some j) : k ≤ n := by
  induction k generalizing i n with
  | zero => exact Nat.zero_le n
  | succ k ih =>
    obtain ⟨o, a, ho, ha, hk⟩ := followAnchors_succ h
    cases n with
    | zero => rw [rootWithin_zero_anchored ho ha] at hr; cases hr
    | succ n => rw [rootWithin_succ_anchored ho ha] at hr; exact Nat.succ_le_succ (ih hr hk)

/-- A chain that ends does not lead back to its start. -/
theorem followAnchors_acyclic {n k : Nat} (hr : rootWithin look n i = true) : followAnchors look (k + 1) i ≠ some i := by
  intro h
  have loop : ∀ m, depthOf look n i ≤ k + 1 + m ↔ depthOf look n i ≤ m := fun m => by
    rw [← rootWithin_iff_depthOf_le hr, ← rootWithin_iff_depthOf_le hr, rootWithin_followAnchors h]
  have hroot : rootWithin look 0 i = true := by
    rw [rootWithin_iff_depthOf_le hr]
    have := loop (depthOf look n i - 1)
    omega
  have := followAnchors_le hroot h
  omega

/-- On a side that obeys R6 a chain meets a record at most once. -/
theorem followAnchors_unique (law : ChainLaw look) {k l j : Nat} (hk : followAnchors look k i = some j)
    (hl : followAnchors look l i = some j) : k = l := by
  have once : ∀ k m, followAnchors look k i = some j → followAnchors look (k + (m + 1)) i ≠ some j := fun k m h h' => by
    rw [followAnchors_add h] at h'
    obtain ⟨o, -, ho, -, -⟩ := followAnchors_succ h'
    exact followAnchors_acyclic (law j o ho) h'
  rcases Nat.lt_trichotomy k l with h | h | h
  · obtain ⟨m, rfl⟩ := Nat.exists_eq_add_of_lt h
    exact absurd hl (once k m hk)
  · exact h
  · obtain ⟨m, rfl⟩ := Nat.exists_eq_add_of_lt h
    exact absurd hk (once l m hl)

/-- The search for a cycle finds a target within `n` links up (R13). -/
theorem passesThrough_iff {target n : Nat} :
    passesThrough look target n i = true ↔ ∃ k ≤ n, followAnchors look k i = some target := by
  induction n generalizing i with
  | zero =>
    simp only [passesThrough, beq_iff_eq, Nat.le_zero]
    exact ⟨fun h => ⟨0, rfl, by rw [h]; rfl⟩, fun ⟨k, hk, h⟩ => by subst hk; cases h; rfl⟩
  | succ n ih =>
    have later : (∃ k ≤ n + 1, followAnchors look k i = some target) ↔
        i = target ∨ ∃ k ≤ n, followAnchors look (k + 1) i = some target := by
      constructor
      · rintro ⟨k, hk, h⟩
        cases k with
        | zero => cases h; exact .inl rfl
        | succ k => exact .inr ⟨k, Nat.le_of_succ_le_succ hk, h⟩
      · rintro (rfl | ⟨k, hk, h⟩)
        · exact ⟨0, Nat.zero_le _, rfl⟩
        · exact ⟨k + 1, Nat.succ_le_succ hk, h⟩
    rw [later]
    unfold passesThrough
    rw [Bool.or_eq_true, beq_iff_eq]
    refine or_congr Iff.rfl ?_
    cases ho : look i with
    | none => simp [followAnchors, ho]
    | some o =>
      cases ha : o.anchor with
      | none => simp [followAnchors, ho, ha]
      | some a => simp only [followAnchors_succ_anchored ho ha, ha]; exact ih

/-! ### Heights -/

/-- A chain that leads to a record is no longer than the record's height and what stands on the chain's start. -/
theorem le_heightOf (bounded : ∀ j o, look j = some o → j < 64) {k j : Nat} (h : followAnchors look k i = some j) (m : Nat) :
    k + heightOf look m i ≤ heightOf look (k + m) j := by
  induction k generalizing i m with
  | zero => cases h; simp
  | succ k ih =>
    obtain ⟨o, a, ho, ha, hk⟩ := followAnchors_succ h
    have hi : i ∈ anchoredTo look a := mem_anchoredTo.mpr ⟨bounded i o ho, o, ho, ha⟩
    have link : heightOf look m i + 1 ≤ heightOf look (m + 1) a :=
      List.le_max_of_le' 0 (List.mem_map.mpr ⟨i, hi, rfl⟩) (Nat.le_refl _)
    have rest := ih hk (m + 1)
    rw [show k + (m + 1) = k + 1 + m by omega] at rest
    omega

/-- The greatest of a list, with 0, is 0 or in the list. -/
theorem foldr_max_eq (l : List Nat) : l.foldr max 0 = 0 ∨ l.foldr max 0 ∈ l := by
  induction l with
  | nil => exact .inl rfl
  | cons x l ih =>
    rw [List.foldr_cons]
    rcases Nat.le_total x (l.foldr max 0) with h | h
    · rw [Nat.max_eq_right h]
      exact ih.imp id (List.mem_cons_of_mem _)
    · rw [Nat.max_eq_left h]
      exact .inr (List.mem_cons_self ..)

/-- The height of a record is the length of some chain that leads to it. -/
theorem exists_followAnchors_heightOf (look : Nat → Option ObjectFields) (m j : Nat) :
    ∃ i, followAnchors look (heightOf look m j) i = some j := by
  induction m generalizing j with
  | zero => exact ⟨j, rfl⟩
  | succ m ih =>
    rcases foldr_max_eq ((anchoredTo look j).map fun i => heightOf look m i + 1) with h | h
    · exact ⟨j, by unfold heightOf; rw [h]; rfl⟩
    · obtain ⟨b, hb, hm⟩ := List.mem_map.mp h
      obtain ⟨-, o, ho, ha⟩ := mem_anchoredTo.mp hb
      obtain ⟨i, hi⟩ := ih b
      refine ⟨i, ?_⟩
      unfold heightOf
      rw [← hm]
      rw [followAnchors_add hi, followAnchors_succ_anchored ho ha]
      rfl

/-! ### Two lookups that differ at one id alone -/

variable {look' : Nat → Option ObjectFields} {target : Nat}

/-- A chain is the same in both lookups up to its end, or up to the id at which they differ. -/
theorem rootWithin_or_meets (off : ∀ j, j ≠ target → look' j = look j) {n : Nat} (h : rootWithin look n i = true) :
    rootWithin look' n i = true ∨
      ∃ k ≤ n, followAnchors look k i = some target ∧ followAnchors look' k i = some target := by
  induction n generalizing i with
  | zero =>
    by_cases hi : i = target
    · exact .inr ⟨0, Nat.le_refl 0, by rw [hi]; rfl, by rw [hi]; rfl⟩
    · obtain ⟨o, ho⟩ := rootWithin_isSome h
      cases ha : o.anchor with
      | none => exact .inl (rootWithin_root ((off i hi).trans ho) ha 0)
      | some a => rw [rootWithin_zero_anchored ho ha] at h; cases h
  | succ n ih =>
    by_cases hi : i = target
    · exact .inr ⟨0, Nat.zero_le _, by rw [hi]; rfl, by rw [hi]; rfl⟩
    · obtain ⟨o, ho⟩ := rootWithin_isSome h
      have ho' := (off i hi).trans ho
      cases ha : o.anchor with
      | none => exact .inl (rootWithin_root ho' ha _)
      | some a =>
        rw [rootWithin_succ_anchored ho ha] at h
        rw [rootWithin_succ_anchored ho' ha]
        refine (ih h).imp id ?_
        rintro ⟨k, hk, h1, h2⟩
        exact ⟨k + 1, Nat.succ_le_succ hk, by rw [followAnchors_succ_anchored ho ha, h1],
          by rw [followAnchors_succ_anchored ho' ha, h2]⟩

/-- The first arrival of a chain at the id at which the lookups differ is the same in both. -/
theorem followAnchors_first (off : ∀ j, j ≠ target → look' j = look j) {k : Nat}
    (h : followAnchors look k i = some target) :
    ∃ l ≤ k, followAnchors look l i = some target ∧ followAnchors look' l i = some target := by
  induction k generalizing i with
  | zero => cases h; exact ⟨0, Nat.le_refl 0, rfl, rfl⟩
  | succ k ih =>
    by_cases hi : i = target
    · exact ⟨0, Nat.zero_le _, by rw [hi]; rfl, by rw [hi]; rfl⟩
    · obtain ⟨o, a, ho, ha, hk⟩ := followAnchors_succ h
      obtain ⟨l, hl, h1, h2⟩ := ih hk
      exact ⟨l + 1, Nat.succ_le_succ hl, by rw [followAnchors_succ_anchored ho ha, h1],
        by rw [followAnchors_succ_anchored ((off i hi).trans ho) ha, h2]⟩

/-- A record that gets an anchor outside its own descendants, on a chain short enough with what stands on it, keeps R6. -/
theorem chainLaw_of_short (bounded : ∀ j o, look j = some o → j < 64) (law : ChainLaw look)
    (off : ∀ j, j ≠ target → look' j = look j) {named : Nat} (ho : look' target = some o) (ha : o.anchor = some named)
    (defined : look named ≠ none) (apart : ¬ passesThrough look target 3 named = true)
    (short : depthOf look 3 named + 1 + heightOf look 3 target ≤ 3) : ChainLaw look' := by
  obtain ⟨n, hn⟩ := Option.ne_none_iff_exists'.mp defined
  have hd : rootWithin look (depthOf look 3 named) named = true :=
    (rootWithin_iff_depthOf_le (law named n hn) _).mpr (Nat.le_refl _)
  have named' : rootWithin look' (depthOf look 3 named) named = true := by
    rcases rootWithin_or_meets off hd with h | ⟨k, hk, h, -⟩
    · exact h
    · exact absurd (passesThrough_iff.mpr ⟨k, by omega, h⟩) apart
  have target' : rootWithin look' (depthOf look 3 named + 1) target = true := by
    rw [rootWithin_succ_anchored ho ha, named']
  intro i p hp
  by_cases hi : i = target
  · exact hi ▸ rootWithin_mono target' (by omega)
  · rcases rootWithin_or_meets off (law i p (off i hi ▸ hp)) with h | ⟨k, hk, h, h'⟩
    · exact h
    · have above := le_heightOf bounded h (3 - k)
      rw [Nat.add_sub_cancel' hk] at above
      refine rootWithin_mono (n := k + (depthOf look 3 named + 1)) ?_ (by omega)
      rw [rootWithin_followAnchors h', target']

/-- Where R6 stands with the new anchor, the record named is DEFINED, off the record's own descendants, and the chain through
both is short. -/
theorem short_of_chainLaw (law : ChainLaw look) (off : ∀ j, j ≠ target → look' j = look j) {named : Nat}
    (ho : look' target = some o) (ha : o.anchor = some named) (law' : ChainLaw look') :
    look named ≠ none ∧ ¬ passesThrough look target 3 named = true ∧
      depthOf look 3 named + 1 + heightOf look 3 target ≤ 3 := by
  have target' := law' target o ho
  have apart : ∀ k, followAnchors look k named ≠ some target := fun k h => by
    obtain ⟨l, -, -, h'⟩ := followAnchors_first off h
    exact followAnchors_acyclic target' (by rw [followAnchors_succ_anchored ho ha, h'])
  have off' : ∀ j, j ≠ target → look j = look' j := fun j hj => (off j hj).symm
  have back : ∀ n, rootWithin look' n named = true → rootWithin look n named = true := fun n hn => by
    rcases rootWithin_or_meets off' hn with h | ⟨k, -, -, h⟩
    · exact h
    · exact absurd h (apart k)
  have hnamed : rootWithin look 2 named = true := back 2 (by rwa [rootWithin_succ_anchored ho ha] at target')
  obtain ⟨n, hn⟩ := rootWithin_isSome hnamed
  refine ⟨by rw [hn]; nofun, fun h => ?_, ?_⟩
  · obtain ⟨k, -, hk⟩ := passesThrough_iff.mp h
    exact apart k hk
  · obtain ⟨i, hi⟩ := exists_followAnchors_heightOf look 3 target
    generalize heightOf look 3 target = height at hi ⊢
    obtain ⟨l, -, hl, h'⟩ := followAnchors_first off hi
    obtain rfl := followAnchors_unique law hl hi
    have root : rootWithin look' 3 i = true := by
      by_cases h : i = target
      · rw [h, target']
      · cases l with
        | zero => cases hi; exact absurd rfl h
        | succ l =>
          obtain ⟨p, -, hp, -, -⟩ := followAnchors_succ hi
          exact law' i p ((off i h).trans hp)
    obtain ⟨m, hm⟩ := Nat.exists_eq_add_of_le (followAnchors_le root h')
    rw [hm, rootWithin_followAnchors h'] at root
    cases m with
    | zero => rw [rootWithin_zero_anchored ho ha] at root; cases root
    | succ m =>
      rw [rootWithin_succ_anchored ho ha] at root
      have := (rootWithin_iff_depthOf_le (law named n hn) m).mp (back m root)
      omega

end

/-! ### The anchor checks -/

section
variable {t : ObjectTable} {target named : Nat}

theorem passesThrough_self (look : Nat → Option ObjectFields) (n i : Nat) : passesThrough look i n i = true :=
  passesThrough_iff.mpr ⟨0, Nat.zero_le n, rfl⟩

/-- Stage 7 (R13). -/
theorem checkAnchor_noObject (free : t.stagedAt named = none) (other : named ≠ target) :
    checkAnchor t target named = .failed .noObject [] := by
  simp [checkAnchor, free, other]

/-- Stage 8 (R13); the target itself counts as DEFINED. -/
theorem checkAnchor_cycle (defined : t.stagedAt named ≠ none ∨ named = target)
    (back : passesThrough t.stagedAt target 3 named = true) : checkAnchor t target named = .failed .cycle [u8 named] := by
  have h : ((t.stagedAt named).isNone && named != target) = false := by
    rcases defined with h | h
    · simp [h]
    · simp [h]
  simp [checkAnchor, h, Config.maxLinks, back]

/-- Stage 9 (R14). -/
theorem checkAnchor_length (defined : t.stagedAt named ≠ none) (apart : ¬ passesThrough t.stagedAt target 3 named = true) :
    checkAnchor t target named =
      if 3 < depthOf t.stagedAt 3 named + 1 + heightOf t.stagedAt 3 target then
        .failed .depth [u8 (depthOf t.stagedAt 3 named + 1 + heightOf t.stagedAt 3 target)]
      else .passed := by
  have h : ((t.stagedAt named).isNone && named != target) = false := by simp [defined]
  unfold checkAnchor
  simp only [h]
  exact (if_neg Bool.false_ne_true).trans (if_neg apart)

/-- The anchors that pass. -/
theorem checkAnchor_passed_iff : checkAnchor t target named = .passed ↔
    t.stagedAt named ≠ none ∧ ¬ passesThrough t.stagedAt target 3 named = true ∧
      depthOf t.stagedAt 3 named + 1 + heightOf t.stagedAt 3 target ≤ 3 := by
  by_cases back : passesThrough t.stagedAt target 3 named = true
  · by_cases free : t.stagedAt named = none ∧ named ≠ target
    · simp [checkAnchor_noObject free.1 free.2, back]
    · rw [checkAnchor_cycle (by tauto) back]
      simp [back]
  · by_cases free : t.stagedAt named = none
    · have other : named ≠ target := fun h => back (h ▸ passesThrough_self t.stagedAt 3 named)
      simp [checkAnchor_noObject free other, free]
    · rw [checkAnchor_length free back]
      simp [free, back]

/-- On a side that obeys R6 the anchor checks pass exactly the anchors with which it still obeys R6. -/
theorem checkAnchor_passed_iff_chainLaw {o : ObjectFields} (law : ChainLaw t.stagedAt) (ht : target < 64)
    (ha : o.anchor = some named) :
    checkAnchor t target named = .passed ↔ ChainLaw (t.setStaged target (some o)).stagedAt := by
  have off : ∀ j, j ≠ target → (t.setStaged target (some o)).stagedAt j = t.stagedAt j := fun j hj => by
    rw [stagedAt_setStaged _ _ _ _ ht, if_neg hj]
  have ho : (t.setStaged target (some o)).stagedAt target = some o := by
    rw [stagedAt_setStaged _ _ _ _ ht, if_pos rfl]
  rw [checkAnchor_passed_iff]
  constructor
  · rintro ⟨defined, apart, short⟩
    exact chainLaw_of_short (fun _ _ => stagedAt_lt) law off ho ha defined apart short
  · exact short_of_chainLaw law off ho ha

end

end Sys2Proof.Machine

namespace Sys2Proof.OverlayObjects

open Sys2Proof.Machine

/-- Settles O32: the anchor checks pass exactly where the chain through the new anchor stays short, which is where R6 stands with it. -/
theorem anchorChecksKeepChainsShort : Obligations.AnchorChecksKeepChainsShort := by
  unfold Obligations.AnchorChecksKeepChainsShort
  intro t target named o law ht ha leadsBack n
  refine ⟨checkAnchor_passed_iff_chainLaw law ht ha, checkAnchor_noObject, checkAnchor_cycle, ?_, ?_⟩
  · intro defined apart long
    have depth := depthOf_le t.stagedAt 3 named
    have height := heightOf_le t.stagedAt 3 target
    refine ⟨by omega, ?_⟩
    rw [checkAnchor_length defined apart, if_pos long]
  · intro defined apart short
    exact checkAnchor_passed_iff.mpr ⟨defined, apart, short⟩

end Sys2Proof.OverlayObjects
end

section
/-! What an edit of a staged record may write once the checks of R7 have passed, and the object table's own laws (R1, R6, R18) behind
an edit, an apply, DISCARD and CLEAR_ALL. -/

namespace Sys2Proof.Machine

/-! ### The RANGE checks, field by field (R9, R10, R12) -/

theorem positionInRange_iff (i : Int) : positionInRange i = true ↔ -1024 ≤ i ∧ i ≤ 4095 := by simp [positionInRange]

theorem scaleInRange_iff (n : Nat) : scaleInRange n = true ↔ 1 ≤ n ∧ n ≤ 4 := by simp [scaleInRange]

theorem isChoice_iff (n : Nat) : isChoice n = true ↔ n ≤ 1 := by simp [isChoice]

theorem clipInRange_iff (c : Clip) : clipInRange c = true ↔ c.InRange := by simp [clipInRange, Clip.InRange, and_assoc]

theorem defineInRange_iff (p : List Byte) : defineInRange p = true ↔
    byteAt p 0 < 64 ∧ byteAt p 1 < 128 ∧ (-1024 ≤ s16At p 2 ∧ s16At p 2 ≤ 4095) ∧
      (-1024 ≤ s16At p 4 ∧ s16At p 4 ≤ 4095) ∧ byteAt p 7 < 8 ∧ byteAt p 8 < 16 ∧ (1 ≤ byteAt p 9 ∧ byteAt p 9 ≤ 4) ∧
      (1 ≤ byteAt p 10 ∧ byteAt p 10 ≤ 4) ∧ (byteAt p 11 ≤ 1 ∧ byteAt p 12 ≤ 1) ∧ byteAt p 13 ≤ 15 ∧
      (byteAt p 14 ≤ 1 ∧ byteAt p 15 ≤ 1 ∧ byteAt p 17 ≤ 1) ∧ (byteAt p 15 = 1 → byteAt p 16 < 64) ∧
      (byteAt p 17 = 1 → (clipAt p 18).InRange) := by
  have present : ∀ (n : Nat) (b : Bool), (n != 1 || b) = true ↔ (n = 1 → b = true) := fun n b => by
    by_cases h : n = 1 <;> simp [h]
  simp only [defineInRange, Bool.and_eq_true, decide_eq_true_eq, positionInRange_iff, scaleInRange_iff, isChoice_iff,
    clipInRange_iff, present, and_assoc, Nat.lt_succ_iff (n := 15)]
  rw [and_left_comm (a := byteAt p 15 = 1 → byteAt p 16 < 64)]

theorem moveInRange_iff (p : List Byte) : moveInRange p = true ↔
    byteAt p 0 < 64 ∧ (-1024 ≤ s16At p 1 ∧ s16At p 1 ≤ 4095) ∧ -1024 ≤ s16At p 3 ∧ s16At p 3 ≤ 4095 := by
  simp only [moveInRange, Bool.and_eq_true, decide_eq_true_eq, positionInRange_iff, and_assoc]

theorem attrItemInRange_iff (p : List Byte) (i : Nat) (ok : Nat → Bool) :
    attrItemInRange p i ok = true ↔ (attrFlag p i = true → ok (attrOffset p i) = true) := by
  unfold attrItemInRange
  cases attrFlag p i <;> simp

/-- Byte `k` of flag `i`'s item. -/
def attrValue (p : List Byte) (i k : Nat) : Nat := byteAt p (attrOffset p i + k)

theorem attrValue_zero (p : List Byte) (i : Nat) : byteAt p (attrOffset p i) = attrValue p i 0 := by
  rw [attrValue, Nat.add_zero]

theorem attrValue_one (p : List Byte) (i : Nat) : byteAt p (attrOffset p i + 1) = attrValue p i 1 := rfl

theorem attrByte_eq (p : List Byte) (i k old : Nat) :
    attrByte p i k old = if attrFlag p i then attrValue p i k else old := rfl

theorem attrImage_eq (p : List Byte) : attrImage p = if attrFlag p 0 then some (attrValue p 0 0) else none := by
  rw [attrImage, attrValue_zero]

theorem attrAnchor_eq (p : List Byte) : attrAnchor p = if attrFlag p 10 then some (attrValue p 10 0) else none := by
  rw [attrAnchor, attrValue_zero]

theorem attrInRange_iff (p : List Byte) : attrInRange p = true ↔
    byteAt p 0 < 64 ∧ ¬(attrFlag p 8 = true ∧ attrFlag p 9 = true) ∧ ¬(attrFlag p 10 = true ∧ attrFlag p 11 = true) ∧
      (¬attrFlag p 12 = true ∧ ¬attrFlag p 13 = true ∧ ¬attrFlag p 14 = true ∧ ¬attrFlag p 15 = true) ∧
      (attrFlag p 0 = true → attrValue p 0 0 < 128) ∧ (attrFlag p 2 = true → attrValue p 2 0 < 8) ∧
      (attrFlag p 3 = true → attrValue p 3 0 < 16) ∧
      (attrFlag p 4 = true → (1 ≤ attrValue p 4 0 ∧ attrValue p 4 0 ≤ 4) ∧ 1 ≤ attrValue p 4 1 ∧ attrValue p 4 1 ≤ 4) ∧
      (attrFlag p 5 = true → attrValue p 5 0 ≤ 1 ∧ attrValue p 5 1 ≤ 1) ∧
      (attrFlag p 6 = true → attrValue p 6 0 ≤ 15) ∧ (attrFlag p 7 = true → attrValue p 7 0 ≤ 1) ∧
      (attrFlag p 8 = true → (clipAt p (attrOffset p 8)).InRange) ∧ (attrFlag p 10 = true → attrValue p 10 0 < 64) := by
  simp only [attrInRange, Bool.and_eq_true, decide_eq_true_eq, attrItemInRange_iff, scaleInRange_iff, isChoice_iff,
    clipInRange_iff, Bool.not_eq_true', Bool.and_eq_false_iff, Nat.lt_succ_iff (n := 15), Bool.not_eq_true, not_and,
    attrValue_zero, attrValue_one]
  have apart : ∀ a b : Bool, a = false ∨ b = false ↔ (a = true → b = false) := by decide
  rw [apart, apart]
  tauto

theorem defineFields_inRange {p : List Byte} (h : defineInRange p = true) : (defineFields p).InRange := by
  obtain ⟨-, image, x, y, palette, row, sx, sy, -, opacity, -, anchor, clip⟩ := (defineInRange_iff p).mp h
  refine ⟨image, x, y, byteAt_lt p 6, palette, row, sx, sy, opacity, fun a ha => ?_, fun c hc => ?_⟩
  · simp only [defineFields, Option.ite_none_right_eq_some, Option.some.injEq] at ha
    exact ha.2 ▸ anchor ha.1
  · simp only [defineFields, Option.ite_none_right_eq_some, Option.some.injEq] at hc
    exact hc.2 ▸ clip hc.1

theorem moveFields_inRange {p : List Byte} {o : ObjectFields} (h : moveInRange p = true) (ho : o.InRange) :
    ObjectFields.InRange { o with x := s16At p 1, y := s16At p 3 } := by
  obtain ⟨-, x, y⟩ := (moveInRange_iff p).mp h
  exact { ho with x := x, y := y }

/-- An item's byte, present or not, has what both the item and the record's old value have. -/
theorem attrByte_keeps {p : List Byte} {i k old : Nat} (ok : Nat → Prop) (item : attrFlag p i = true → ok (attrValue p i k))
    (kept : ok old) : ok (attrByte p i k old) := by
  rw [attrByte_eq]
  split
  · exact item ‹_›
  · exact kept

theorem attrFields_inRange {p : List Byte} {o : ObjectFields} (h : attrInRange p = true) (ho : o.InRange) :
    (attrFields p o).InRange := by
  obtain ⟨-, -, -, -, image, palette, row, scale, -, opacity, -, clip, anchor⟩ := (attrInRange_iff p).mp h
  refine ⟨attrByte_keeps (· < 128) image ho.image, ho.x, ho.y, attrByte_keeps (· < 256) (fun _ => byteAt_lt _ _) ho.z,
    attrByte_keeps (· < 8) palette ho.palette, attrByte_keeps (· < 16) row ho.row,
    attrByte_keeps (fun n => 1 ≤ n ∧ n ≤ 4) (fun f => (scale f).1) ho.scaleX,
    attrByte_keeps (fun n => 1 ≤ n ∧ n ≤ 4) (fun f => (scale f).2) ho.scaleY,
    attrByte_keeps (· ≤ 15) opacity ho.opacity, fun a ha => ?_, fun c hc => ?_⟩
  · simp only [attrFields, attrValue_zero] at ha
    split_ifs at ha with set clear
    · exact Option.some.inj ha ▸ anchor set
    · exact ho.anchor a ha
  · simp only [attrFields] at hc
    split_ifs at hc with set clear
    · exact Option.some.inj hc ▸ clip set
    · exact ho.clip c hc

/-! ### What the checks let an edit write -/

/-- What the checks of R7 let an edit of record `id` write: a record in range whose image is READY or the one named before, and
whose anchor is absent, passes the anchor checks or is the one named before; or FREE where no record anchors to `id`. -/
inductive EditPassed (s : State) (id : Nat) : Option ObjectFields → Prop
  | write {new : ObjectFields} (range : (∀ o, s.objects.stagedAt id = some o → o.InRange) → new.InRange)
      (image : imageRefusal s new.image = none ∨ ∃ o, s.objects.stagedAt id = some o ∧ new.image = o.image)
      (anchor : new.anchor = none ∨ (∃ named, new.anchor = some named ∧ checkAnchor s.objects id named = .passed) ∨
        ∃ o, s.objects.stagedAt id = some o ∧ new.anchor = o.anchor) : EditPassed s id (some new)
  | delete (unanchored : anchoredTo s.objects.stagedAt id = []) : EditPassed s id none

section
variable {s : State} {p : List Byte}

theorem editPassed_define (range : defineInRange p = true) (image : imageRefusal s (byteAt p 1) = none)
    (anchor : checkAnchorOption s.objects (byteAt p 0) (defineFields p).anchor = .passed) :
    EditPassed s (byteAt p 0) (some (defineFields p)) := by
  refine .write (fun _ => defineFields_inRange range) (.inl image) ?_
  cases ha : (defineFields p).anchor with
  | none => exact .inl rfl
  | some named => exact .inr (.inl ⟨named, rfl, by rw [ha] at anchor; exact anchor⟩)

theorem editPassed_move {o : ObjectFields} (range : moveInRange p = true)
    (found : s.objects.stagedAt (byteAt p 0) = some o) :
    EditPassed s (byteAt p 0) (some { o with x := s16At p 1, y := s16At p 3 }) :=
  .write (fun h => moveFields_inRange range (h o found)) (.inr ⟨o, found, rfl⟩) (.inr (.inr ⟨o, found, rfl⟩))

theorem editPassed_attr {o : ObjectFields} (range : attrInRange p = true)
    (found : s.objects.stagedAt (byteAt p 0) = some o) (image : imageRefusalOption s (attrImage p) = none)
    (anchor : checkAnchorOption s.objects (byteAt p 0) (attrAnchor p) = .passed) :
    EditPassed s (byteAt p 0) (some (attrFields p o)) := by
  refine .write (fun h => attrFields_inRange range (h o found)) ?_ ?_
  · cases f : attrFlag p 0 with
    | true =>
      rw [attrImage_eq, f] at image
      exact .inl (by simp only [attrFields, attrByte_eq, f]; exact image)
    | false => exact .inr ⟨o, found, by simp [attrFields, attrByte_eq, f]⟩
  · cases set : attrFlag p 10 with
    | true =>
      rw [attrAnchor_eq, set] at anchor
      exact .inr (.inl ⟨_, by simp only [attrFields, attrValue_zero, set]; rfl, anchor⟩)
    | false =>
      cases clear : attrFlag p 11 with
      | true => exact .inl (by simp [attrFields, set, clear])
      | false => exact .inr (.inr ⟨o, found, by simp [attrFields, set, clear]⟩)

end

/-! ### A law of the object table alone -/

/-- What holds of the object table after reset, and is kept by an apply, DISCARD, CLEAR_ALL's clearing and every edit that passes
its checks, is kept by every step. -/
theorem step_keeps_objects (P : ObjectTable → Prop) (reset : P ObjectTable.reset) (apply : ∀ t, P t → P t.applyStaged)
    (discard : ∀ t, P t → P t.discardStaged) (clear : ∀ t, P t → P t.clearStaged)
    (edit : ∀ s id new, id < 64 → EditPassed s id new → P s.objects → P (s.objects.setStaged id new))
    {s t : State} (hs : P s.objects) (h : step s = .next t) : P t.objects := by
  refine step_keeps (fun s => P s.objects) (fun s t same hs => same.objects ▸ hs) reset (fun s => apply s.objects) ?_ hs h
  intro code p s hs
  have answered := dispatch_answered code p s
  generalize (dispatch code p s).state = t at answered ⊢
  cases answered with
  | define _ _ range image anchor =>
    exact edit s _ _ ((defineInRange_iff p).mp range).1 (editPassed_define range image anchor) hs
  | move _ _ range o found => exact edit s _ _ (stagedAt_lt found) (editPassed_move range found) hs
  | attr _ _ range o found image anchor => exact edit s _ _ (stagedAt_lt found) (editPassed_attr range found image anchor) hs
  | delete _ _ range o found free => exact edit s _ _ range (.delete free) hs
  | now => exact apply _ hs
  | discard => exact discard _ hs
  | clearArmed => exact clear _ hs
  | clearNow => exact apply _ (clear _ hs)
  | _ => exact hs

/-! ### Records in range (R1) -/

theorem recordsInRange_reset : ObjectTable.reset.RecordsInRange := by constructor <;> simp

theorem recordsInRange_applyStaged {t : ObjectTable} (h : t.RecordsInRange) : t.applyStaged.RecordsInRange := by
  refine ⟨h.1, fun i o ho => ?_⟩
  rw [activeAt_applyStaged, Option.map_eq_some_iff] at ho
  obtain ⟨q, hq, rfl⟩ := ho
  exact h.1 i q hq

theorem recordsInRange_discardStaged {t : ObjectTable} (h : t.RecordsInRange) : t.discardStaged.RecordsInRange := by
  refine ⟨fun i o ho => ?_, h.2⟩
  rw [stagedAt_discardStaged, Option.map_eq_some_iff] at ho
  obtain ⟨q, hq, rfl⟩ := ho
  exact h.2 i q hq

theorem recordsInRange_clearStaged {t : ObjectTable} (h : t.RecordsInRange) : t.clearStaged.RecordsInRange :=
  ⟨fun i o ho => by simp at ho, h.2⟩

theorem recordsInRange_edit {s : State} {id : Nat} {new : Option ObjectFields} (hid : id < 64) (passed : EditPassed s id new)
    (h : s.objects.RecordsInRange) : (s.objects.setStaged id new).RecordsInRange := by
  refine ⟨fun i o ho => ?_, h.2⟩
  rw [stagedAt_setStaged _ _ _ _ hid] at ho
  split at ho
  · cases passed with
    | write range => exact Option.some.inj ho ▸ range (h.1 id)
    | delete => cases ho
  · exact h.1 i o ho

/-! ### Anchor chains (R6) -/

section
variable {look look' : Nat → Option ObjectFields} {target : Nat}

/-- A record without an anchor leaves every chain as it was or ends it. -/
theorem chainLaw_of_root (law : ChainLaw look) (off : ∀ j, j ≠ target → look' j = look j) {o : ObjectFields}
    (ho : look' target = some o) (ha : o.anchor = none) : ChainLaw look' := by
  intro i p hp
  by_cases hi : i = target
  · exact hi ▸ rootWithin_root ho ha 3
  · rcases rootWithin_or_meets off (law i p (off i hi ▸ hp)) with h | ⟨k, hk, -, h⟩
    · exact h
    · rw [← Nat.add_sub_cancel' hk, rootWithin_followAnchors h]
      exact rootWithin_root ho ha _

/-- A chain of one link or more leads to a record that another anchors to. -/
theorem exists_anchored_of_followAnchors {k i j : Nat} (h : followAnchors look (k + 1) i = some j) :
    ∃ b o, look b = some o ∧ o.anchor = some j := by
  induction k generalizing i with
  | zero =>
    obtain ⟨o, a, ho, ha, hk⟩ := followAnchors_succ h
    cases hk
    exact ⟨i, o, ho, ha⟩
  | succ k ih =>
    obtain ⟨_, _, _, _, hk⟩ := followAnchors_succ h
    exact ih hk

/-- A record to which none anchors may go FREE. -/
theorem chainLaw_of_free (law : ChainLaw look) (off : ∀ j, j ≠ target → look' j = look j) (free : look' target = none)
    (unanchored : ∀ j o, look j = some o → o.anchor ≠ some target) : ChainLaw look' := by
  intro i p hp
  have hi : i ≠ target := fun e => by rw [e, free] at hp; cases hp
  rcases rootWithin_or_meets off (law i p (off i hi ▸ hp)) with h | ⟨k, -, h, -⟩
  · exact h
  · cases k with
    | zero => cases h; exact absurd rfl hi
    | succ k =>
      obtain ⟨b, o, ho, ha⟩ := exists_anchored_of_followAnchors h
      exact absurd ha (unanchored b o ho)

end

theorem anchoredTo_eq_nil {t : ObjectTable} {id : Nat} :
    anchoredTo t.stagedAt id = [] ↔ ¬∃ j o, t.stagedAt j = some o ∧ o.anchor = some id := by
  rw [List.eq_nil_iff_forall_not_mem]
  constructor
  · rintro h ⟨j, o, ho, ha⟩
    exact h j (mem_anchoredTo.mpr ⟨stagedAt_lt ho, o, ho, ha⟩)
  · intro h j hj
    obtain ⟨-, o, ho, ha⟩ := mem_anchoredTo.mp hj
    exact h ⟨j, o, ho, ha⟩

/-- The anchor a record has passes the checks of R13 and R14. -/
theorem checkAnchor_kept {t : ObjectTable} (law : ChainLaw t.stagedAt) {id named : Nat} {o : ObjectFields}
    (ho : t.stagedAt id = some o) (ha : o.anchor = some named) : checkAnchor t id named = .passed :=
  checkAnchor_passed_iff.mpr (short_of_chainLaw law (fun _ _ => rfl) ho ha law)

theorem chainLaw_edit {s : State} {id : Nat} {new : Option ObjectFields} (hid : id < 64) (passed : EditPassed s id new)
    (law : ChainLaw s.objects.stagedAt) : ChainLaw (s.objects.setStaged id new).stagedAt := by
  have off : ∀ j, j ≠ id → (s.objects.setStaged id new).stagedAt j = s.objects.stagedAt j := fun j hj => by
    rw [stagedAt_setStaged _ _ _ _ hid, if_neg hj]
  have at_id : (s.objects.setStaged id new).stagedAt id = new := by rw [stagedAt_setStaged _ _ _ _ hid, if_pos rfl]
  cases passed with
  | @write new _ _ anchor =>
    cases ha : new.anchor with
    | none => exact chainLaw_of_root law off at_id ha
    | some named =>
      refine (checkAnchor_passed_iff_chainLaw law hid ha).mp ?_
      rcases anchor with h | ⟨a, h, ok⟩ | ⟨o, ho, h⟩
      · rw [ha] at h; cases h
      · rw [ha] at h; cases h; exact ok
      · exact checkAnchor_kept law ho (h.symm.trans ha)
  | delete unanchored =>
    exact chainLaw_of_free law off at_id fun j o ho ha => anchoredTo_eq_nil.mp unanchored ⟨j, o, ho, ha⟩

theorem activeFields_applyStaged_eq (t : ObjectTable) : t.applyStaged.activeFields = t.stagedAt :=
  funext fun i => activeFields_applyStaged t i

theorem stagedAt_discardStaged_eq (t : ObjectTable) : t.discardStaged.stagedAt = t.activeFields :=
  funext fun i => stagedAt_discardStaged t i

theorem anchorLaw_reset : ObjectTable.reset.AnchorLaw := by constructor <;> intro i o h <;> simp [ObjectTable.activeFields] at h

theorem anchorLaw_applyStaged {t : ObjectTable} (h : t.AnchorLaw) : t.applyStaged.AnchorLaw :=
  ⟨h.1, by rw [activeFields_applyStaged_eq]; exact h.1⟩

theorem anchorLaw_discardStaged {t : ObjectTable} (h : t.AnchorLaw) : t.discardStaged.AnchorLaw :=
  ⟨by rw [stagedAt_discardStaged_eq]; exact h.2, h.2⟩

theorem anchorLaw_clearStaged {t : ObjectTable} (h : t.AnchorLaw) : t.clearStaged.AnchorLaw :=
  ⟨fun i o ho => by simp at ho, h.2⟩

theorem anchorLaw_edit {s : State} {id : Nat} {new : Option ObjectFields} (hid : id < 64) (passed : EditPassed s id new)
    (h : s.objects.AnchorLaw) : (s.objects.setStaged id new).AnchorLaw := ⟨chainLaw_edit hid passed h.1, h.2⟩

/-! ### Effective positions (R18) -/

section
variable {look : Nat → Option ObjectFields} {o : ObjectFields}

theorem effectivePosition_root (ha : o.anchor = none) (n : Nat) : effectivePosition look n o = (o.x, o.y) := by
  cases n <;> simp [effectivePosition, ha]

theorem effectivePosition_anchored {k : Nat} {b : ObjectFields} (ha : o.anchor = some k) (hb : look k = some b) (n : Nat) :
    effectivePosition look (n + 1) o = ((effectivePosition look n b).1 + o.x, (effectivePosition look n b).2 + o.y) := by
  simp [effectivePosition, ha, hb]

/-- Following more anchors than a chain has changes nothing. -/
theorem effectivePosition_settled {n i : Nat} (hr : rootWithin look n i = true) (ho : look i = some o) :
    effectivePosition look (n + 1) o = effectivePosition look n o := by
  induction n generalizing i o with
  | zero =>
    cases ha : o.anchor with
    | none => rw [effectivePosition_root ha, effectivePosition_root ha]
    | some a => rw [rootWithin_zero_anchored ho ha] at hr; cases hr
  | succ n ih =>
    cases ha : o.anchor with
    | none => rw [effectivePosition_root ha, effectivePosition_root ha]
    | some a =>
      rw [rootWithin_succ_anchored ho ha] at hr
      obtain ⟨b, hb⟩ := rootWithin_isSome hr
      rw [effectivePosition_anchored ha hb, effectivePosition_anchored ha hb, ih hr hb]

/-- A sum of at most `n` positions of records in range. -/
def PositionSum (n : Nat) (q : Int × Int) : Prop :=
  (-1024 * (n : Int) ≤ q.1 ∧ q.1 ≤ 4095 * (n : Int)) ∧ -1024 * (n : Int) ≤ q.2 ∧ q.2 ≤ 4095 * (n : Int)

theorem positionSum_own (ho : o.InRange) (n : Nat) : PositionSum (n + 1) (o.x, o.y) := by
  obtain ⟨hx, hx'⟩ := ho.x
  obtain ⟨hy, hy'⟩ := ho.y
  simp only [PositionSum]
  omega

theorem positionSum_add {n : Nat} {q : Int × Int} (hq : PositionSum n q) (ho : o.InRange) :
    PositionSum (n + 1) (q.1 + o.x, q.2 + o.y) := by
  obtain ⟨hx, hx'⟩ := ho.x
  obtain ⟨hy, hy'⟩ := ho.y
  simp only [PositionSum] at hq ⊢
  omega

/-- With `n` anchors followed, at most `n + 1` positions are summed. -/
theorem positionSum_effectivePosition (range : ∀ j b, look j = some b → b.InRange) (ho : o.InRange) (n : Nat) :
    PositionSum (n + 1) (effectivePosition look n o) := by
  induction n generalizing o with
  | zero => exact positionSum_own ho 0
  | succ n ih =>
    cases hb : o.anchor.bind look with
    | none => simpa [effectivePosition, hb] using positionSum_own ho (n + 1)
    | some b =>
      obtain ⟨k, ha, hk⟩ := Option.bind_eq_some_iff.mp hb
      rw [effectivePosition_anchored ha hk]
      exact positionSum_add (ih (range k b hk)) ho

end

theorem positionsResolved_reset : ObjectTable.reset.PositionsResolved := by intro i a h; simp at h

/-- The apply resolves every position: the sums along chains of at most 3 links. -/
theorem positionsResolved_applyStaged {t : ObjectTable} (law : ChainLaw t.stagedAt)
    (range : ∀ i o, t.stagedAt i = some o → o.InRange) : t.applyStaged.PositionsResolved := by
  intro i a h
  rw [activeAt_applyStaged, Option.map_eq_some_iff] at h
  obtain ⟨o, ho, rfl⟩ := h
  obtain ⟨⟨hx, hx'⟩, hy, hy'⟩ := positionSum_effectivePosition range (range i o ho) 3
  refine ⟨fun (ha : o.anchor = none) => ?_, fun k (ha : o.anchor = some k) => ?_, ?_, ?_⟩
  · simp only [resolve]
    rw [effectivePosition_root ha]
    exact ⟨rfl, rfl⟩
  · have hr := law i o ho
    rw [rootWithin_succ_anchored ho ha] at hr
    obtain ⟨b, hb⟩ := rootWithin_isSome hr
    refine ⟨resolve t.stagedAt b, by simp [hb], ?_⟩
    simp only [resolve, Config.maxLinks]
    rw [effectivePosition_anchored ha hb, effectivePosition_settled hr hb]
    exact ⟨rfl, rfl⟩
  · exact ⟨hx, hx'⟩
  · exact ⟨hy, hy'⟩

end Sys2Proof.Machine

namespace Sys2Proof.OverlayObjects

open Sys2Proof.Machine

/-- Settles O10: apply and DISCARD copy one generation's chains to the other, and every edit that passes its checks keeps them short. -/
theorem stepKeepsAnchorChainsShort : Obligations.StepKeepsAnchorChainsShort := fun _ _ hs h =>
  step_keeps_objects ObjectTable.AnchorLaw anchorLaw_reset (fun _ => anchorLaw_applyStaged) (fun _ => anchorLaw_discardStaged)
    (fun _ => anchorLaw_clearStaged) (fun _ _ _ => anchorLaw_edit) hs h

/-- Settles O11: the active records change at an apply alone, which resolves the positions of a staged side whose chains are short and
whose records are in range. -/
theorem stepKeepsPositionsResolved : Obligations.StepKeepsPositionsResolved := by
  intro s t positions anchors range h
  refine (step_keeps_objects (fun t => t.PositionsResolved ∧ t.AnchorLaw ∧ t.RecordsInRange)
    ⟨positionsResolved_reset, anchorLaw_reset, recordsInRange_reset⟩ ?apply ?discard ?clear ?edit ⟨positions, anchors, range⟩ h).1
  case apply =>
    exact fun t ⟨_, a, r⟩ =>
      ⟨positionsResolved_applyStaged a.1 r.1, anchorLaw_applyStaged a, recordsInRange_applyStaged r⟩
  case discard => exact fun t ⟨p, a, r⟩ => ⟨p, anchorLaw_discardStaged a, recordsInRange_discardStaged r⟩
  case clear => exact fun t ⟨p, a, r⟩ => ⟨p, anchorLaw_clearStaged a, recordsInRange_clearStaged r⟩
  case edit => exact fun s id new hid ok ⟨p, a, r⟩ => ⟨p, anchorLaw_edit hid ok a, recordsInRange_edit hid ok r⟩

end Sys2Proof.OverlayObjects
end

section
/-! The reference counts and the images that records name (R5, R73): when a count is above 0, and that every operation on the two tables
keeps the counts exact and every named image complete. -/

namespace Sys2Proof.Machine

/-! ### The records that name an image -/

/-- A DEFINED staged record names the image. -/
def ObjectTable.StagedNames (t : ObjectTable) (k : Nat) : Prop := ∃ i o, t.stagedAt i = some o ∧ o.image = k

/-- A DEFINED active record names the image. -/
def ObjectTable.ActiveNames (t : ObjectTable) (k : Nat) : Prop := ∃ i o, t.activeAt i = some o ∧ o.fields.image = k

theorem some_mem_toList {α : Type} {n : Nat} (v : Vector (Option α) n) (x : α) :
    some x ∈ v.toList ↔ ∃ i, v.getD i none = some x := by
  simp only [getD_eq, Vector.mem_toList_iff, Vector.mem_iff_getElem?]
  refine exists_congr fun i => ?_
  cases v[i]? <;> simp

/-- Records that pass a test are counted above 0 exactly where some record passes it. -/
theorem countP_any_pos {α : Type} {n : Nat} (v : Vector (Option α) n) (f : α → Bool) :
    (0 < v.toList.countP fun r => r.any f) ↔ ∃ i x, v.getD i none = some x ∧ f x = true := by
  rw [List.countP_pos_iff]
  constructor
  · rintro ⟨r, hr, ht⟩
    cases r with
    | none => cases ht
    | some x =>
      obtain ⟨i, hi⟩ := (some_mem_toList v x).mp hr
      exact ⟨i, x, hi, ht⟩
  · rintro ⟨i, x, hi, ht⟩
    exact ⟨some x, (some_mem_toList v x).mpr ⟨i, hi⟩, ht⟩

theorem stagedNaming_pos (t : ObjectTable) (k : Nat) : 0 < t.stagedNaming k ↔ t.StagedNames k :=
  (countP_any_pos t.staged fun o => o.image == k).trans (by simp only [beq_iff_eq]; rfl)

theorem activeNaming_pos (t : ObjectTable) (k : Nat) : 0 < t.activeNaming k ↔ t.ActiveNames k :=
  (countP_any_pos t.active fun o => o.fields.image == k).trans (by simp only [beq_iff_eq]; rfl)

theorem stagedNaming_applyStaged (t : ObjectTable) (k : Nat) : t.applyStaged.stagedNaming k = t.stagedNaming k := rfl

theorem activeNaming_applyStaged (t : ObjectTable) (k : Nat) : t.applyStaged.activeNaming k = t.stagedNaming k := by
  simp only [ObjectTable.activeNaming, ObjectTable.applyStaged, Vector.toList_map, List.countP_map]
  refine List.countP_congr fun r _ => ?_
  cases r <;> rfl

theorem stagedNaming_discardStaged (t : ObjectTable) (k : Nat) : t.discardStaged.stagedNaming k = t.activeNaming k := by
  simp only [ObjectTable.stagedNaming, ObjectTable.discardStaged, Vector.toList_map, List.countP_map]
  refine List.countP_congr fun r _ => ?_
  cases r <;> rfl

theorem activeNaming_discardStaged (t : ObjectTable) (k : Nat) : t.discardStaged.activeNaming k = t.activeNaming k := rfl

theorem not_stagedNames_clearStaged (t : ObjectTable) (k : Nat) : ¬t.clearStaged.StagedNames k := by
  rintro ⟨i, o, ho, -⟩
  simp at ho

theorem stagedNaming_clearStaged (t : ObjectTable) (k : Nat) : t.clearStaged.stagedNaming k = 0 := by
  have := (stagedNaming_pos t.clearStaged k).not.mpr (not_stagedNames_clearStaged t k)
  omega

theorem activeNames_applyStaged (t : ObjectTable) (k : Nat) : t.applyStaged.ActiveNames k ↔ t.StagedNames k := by
  rw [← activeNaming_pos, activeNaming_applyStaged, stagedNaming_pos]

theorem stagedNames_discardStaged (t : ObjectTable) (k : Nat) : t.discardStaged.StagedNames k ↔ t.ActiveNames k := by
  rw [← stagedNaming_pos, stagedNaming_discardStaged, activeNaming_pos]

/-- R8 moves a count by the name that goes and the name that comes. -/
theorem refsAfter_eq {old new : Option Nat} {k n : Nat} (counted : old = some k → 0 < n) :
    refsAfter old new k n = n - (if old = some k then 1 else 0) + (if new = some k then 1 else 0) := by
  unfold refsAfter
  by_cases ho : old = some k
  · have := counted ho
    by_cases hn : new = some k
    · rw [if_pos (ho.trans hn.symm), if_pos ho, if_pos hn]; omega
    · rw [if_neg fun e : old = new => hn (e ▸ ho), if_neg hn, if_pos ho, if_neg hn, if_pos ho]; omega
  · by_cases hn : new = some k
    · rw [if_neg fun e : old = new => ho (e ▸ hn), if_pos hn, if_neg ho, if_pos hn]; omega
    · rw [if_neg hn, if_neg ho, if_neg ho, if_neg hn, ite_self]; omega

/-- One record replaced: the old record's name out, the new one's in, as R8 moves the counts. -/
theorem stagedNaming_setStaged (t : ObjectTable) {id : Nat} (hid : id < 64) (new : Option ObjectFields) (k : Nat) :
    (t.setStaged id new).stagedNaming k =
      refsAfter ((t.stagedAt id).map ObjectFields.image) (new.map ObjectFields.image) k (t.stagedNaming k) := by
  have hl : id < t.staged.toList.length := by simpa using hid
  have old : t.staged.toList[id] = t.stagedAt id := by simp [ObjectTable.stagedAt, getD_eq, hid]
  have counted : (t.stagedAt id).map ObjectFields.image = some k → 0 < t.stagedNaming k := fun h => by
    obtain ⟨o, ho, hk⟩ := Option.map_eq_some_iff.mp h
    exact (stagedNaming_pos t k).mpr ⟨id, o, ho, hk⟩
  have names : ∀ r : Option ObjectFields, (r.any fun o => o.image == k) = true ↔ r.map ObjectFields.image = some k := by
    intro r
    cases r <;> simp
  rw [refsAfter_eq counted]
  simp only [ObjectTable.stagedNaming, ObjectTable.setStaged, Vector.toList_setIfInBounds]
  rw [List.countP_set hl, old]
  simp only [names]

/-! ### The two laws by image -/

theorem namedImagesComplete_iff (s : State) : s.NamedImagesComplete ↔
    (∀ k, s.objects.StagedNames k → ∃ im, s.images.imageAt k = some im ∧ im.phase = .ready) ∧
      ∀ k, s.objects.ActiveNames k → ∃ im, s.images.imageAt k = some im ∧ (im.phase = .ready ∨ im.phase = .retiring) := by
  constructor
  · rintro ⟨staged, active⟩
    exact ⟨fun k ⟨i, o, ho, hk⟩ => hk ▸ staged i o ho, fun k ⟨i, o, ho, hk⟩ => hk ▸ active i o ho⟩
  · rintro ⟨staged, active⟩
    exact ⟨fun i o ho => staged _ ⟨i, o, ho, rfl⟩, fun i o ho => active _ ⟨i, o, ho, rfl⟩⟩

section
variable {s : State} {k : Nat}

theorem SameTables.referenceLegal {t : State} (same : SameTables s t) (h : s.ReferenceLegal) : t.ReferenceLegal := by
  unfold State.ReferenceLegal State.CountsExact State.NamedImagesComplete at *
  rwa [same.objects, same.images]

theorem activeNames_lt (h : s.objects.RecordsInRange) (hk : s.objects.ActiveNames k) : k < 128 := by
  obtain ⟨i, o, ho, rfl⟩ := hk
  exact (h.2 i o ho).image

theorem stagedRefs_pos (h : s.CountsExact) (hk : k < 128) : 0 < (s.images.entry k).stagedRefs ↔ s.objects.StagedNames k := by
  rw [(h k hk).1, stagedNaming_pos]

theorem activeRefs_pos (h : s.CountsExact) (hk : k < 128) : 0 < (s.images.entry k).activeRefs ↔ s.objects.ActiveNames k := by
  rw [(h k hk).2, activeNaming_pos]

end

/-! ### The image commands (R74 to R82) -/

/-- One entry replaced with its counts kept: the laws stand where the new image serves the records that name it. -/
theorem referenceLegal_entry {s : State} {st : ImageStore} {k : Nat} {e : ImageEntry} (h : s.ReferenceLegal)
    (entries : ∀ j, st.entry j = if j = k then e else s.images.entry j)
    (stagedRefs : e.stagedRefs = (s.images.entry k).stagedRefs) (activeRefs : e.activeRefs = (s.images.entry k).activeRefs)
    (staged : s.objects.StagedNames k → ∃ im, e.image = some im ∧ im.phase = .ready)
    (active : s.objects.ActiveNames k → ∃ im, e.image = some im ∧ (im.phase = .ready ∨ im.phase = .retiring)) :
    State.ReferenceLegal { s with images := st } := by
  obtain ⟨range, counts, complete⟩ := h
  obtain ⟨stagedOk, activeOk⟩ := (namedImagesComplete_iff s).mp complete
  refine ⟨range, fun j hj => ?_, (namedImagesComplete_iff _).mpr ⟨fun j hj => ?_, fun j hj => ?_⟩⟩
  · change (st.entry j).stagedRefs = _ ∧ (st.entry j).activeRefs = _
    rw [entries]
    split
    · next hjk => subst hjk; rw [stagedRefs, activeRefs]; exact counts j hj
    · exact counts j hj
  · change ∃ im, (st.entry j).image = some im ∧ _
    rw [entries]
    split
    · next hjk => subst hjk; exact staged hj
    · exact stagedOk j hj
  · change ∃ im, (st.entry j).image = some im ∧ _
    rw [entries]
    split
    · next hjk => subst hjk; exact active hj
    · exact activeOk j hj

/-- A FREE or LOADING image is named by no record. -/
theorem unnamed_of_incomplete {s : State} {k : Nat} (h : s.ReferenceLegal)
    (incomplete : ∀ im, s.images.imageAt k = some im → im.phase = .loading) :
    ¬s.objects.StagedNames k ∧ ¬s.objects.ActiveNames k := by
  obtain ⟨staged, active⟩ := (namedImagesComplete_iff s).mp h.2.2
  constructor
  · intro hk
    obtain ⟨im, him, hp⟩ := staged k hk
    rw [incomplete im him] at hp
    cases hp
  · intro hk
    obtain ⟨im, him, hp⟩ := active k hk
    rw [incomplete im him] at hp
    rcases hp with hp | hp <;> cases hp

/-- An entry that no record names, replaced with its counts kept. -/
theorem referenceLegal_unnamed {s : State} {st : ImageStore} {k : Nat} {e : ImageEntry} (h : s.ReferenceLegal)
    (entries : ∀ j, st.entry j = if j = k then e else s.images.entry j)
    (stagedRefs : e.stagedRefs = (s.images.entry k).stagedRefs) (activeRefs : e.activeRefs = (s.images.entry k).activeRefs)
    (unnamed : ¬s.objects.StagedNames k ∧ ¬s.objects.ActiveNames k) : State.ReferenceLegal { s with images := st } :=
  referenceLegal_entry h entries stagedRefs activeRefs (fun hk => absurd hk unnamed.1) fun hk => absurd hk unnamed.2

/-! ### Edits, apply, DISCARD and CLEAR_ALL -/

theorem imageRefusal_none {s : State} {k : Nat} (h : imageRefusal s k = none) :
    ∃ im, s.images.imageAt k = some im ∧ im.phase = .ready := by
  unfold imageRefusal at h
  split at h
  · cases h
  · next im him =>
    split at h
    · exact ⟨im, him, ‹_›⟩
    · cases h

theorem imageAt_moveRef (st : ImageStore) (o i : Option Nat) (k : Nat) : (st.moveRef o i).imageAt k = st.imageAt k := by
  by_cases hk : k < 128
  · simp only [ImageStore.imageAt, entry_moveRef st o i k hk, ImageStore.entryAfterEdit]
  · simp only [ImageStore.imageAt, entry_ge _ (Nat.le_of_not_lt hk)]

theorem referenceLegal_edit {s : State} {id : Nat} {new : Option ObjectFields} (hid : id < 64) (passed : EditPassed s id new)
    (h : s.ReferenceLegal) : (editStaged id new s).ReferenceLegal := by
  obtain ⟨range, counts, complete⟩ := h
  obtain ⟨stagedOk, activeOk⟩ := complete
  refine ⟨recordsInRange_edit hid passed range, fun k hk => ?_, fun i o ho => ?_, fun i o ho => ?_⟩
  · change ((s.images.moveRef _ _).entry k).stagedRefs = (s.objects.setStaged id new).stagedNaming k ∧
      ((s.images.moveRef _ _).entry k).activeRefs = s.objects.activeNaming k
    rw [entry_moveRef _ _ _ _ hk, stagedNaming_setStaged _ hid, ← (counts k hk).1, ← (counts k hk).2]
    exact ⟨rfl, rfl⟩
  · change ∃ im, (s.images.moveRef _ _).imageAt o.image = some im ∧ _
    rw [imageAt_moveRef]
    change (s.objects.setStaged id new).stagedAt i = some o at ho
    rw [stagedAt_setStaged _ _ _ _ hid] at ho
    split at ho
    · cases passed with
      | write _ image =>
        obtain rfl := Option.some.inj ho
        rcases image with ready | ⟨q, hq, same⟩
        · exact imageRefusal_none ready
        · exact same ▸ stagedOk id q hq
      | delete => cases ho
    · exact stagedOk i o ho
  · change ∃ im, (s.images.moveRef _ _).imageAt o.fields.image = some im ∧ _
    rw [imageAt_moveRef]
    exact activeOk i o ho

theorem referenceLegal_apply {s : State} (h : s.ReferenceLegal) : (applyTables s).ReferenceLegal := by
  obtain ⟨range, counts, complete⟩ := h
  obtain ⟨stagedOk, activeOk⟩ := (namedImagesComplete_iff s).mp complete
  have drawn : ∀ k, s.objects.StagedNames k → ∃ im, s.images.applyCounts.imageAt k = some im ∧ im.phase = .ready := by
    intro k hk
    obtain ⟨im, him, ready⟩ := stagedOk k hk
    refine ⟨im, ?_, ready⟩
    simp only [ImageStore.imageAt] at him ⊢
    rw [entry_applyCounts, afterApply_eq, if_neg (by simp [ImageEntry.isRetiring, him, ready]), him]
  refine ⟨recordsInRange_applyStaged range, fun k hk => ?_, (namedImagesComplete_iff _).mpr ⟨drawn, fun k hk => ?_⟩⟩
  · change (s.images.applyCounts.entry k).stagedRefs = s.objects.applyStaged.stagedNaming k ∧
      (s.images.applyCounts.entry k).activeRefs = s.objects.applyStaged.activeNaming k
    rw [entry_applyCounts, afterApply_eq, stagedNaming_applyStaged, activeNaming_applyStaged, ← (counts k hk).1]
    split
    · next gone => exact ⟨gone.2.symm, gone.2.symm⟩
    · exact ⟨rfl, rfl⟩
  · obtain ⟨im, him, ready⟩ := drawn k ((activeNames_applyStaged s.objects k).mp hk)
    exact ⟨im, him, .inl ready⟩

theorem referenceLegal_discard {s : State} (h : s.ReferenceLegal) : (discardStagedSide s).ReferenceLegal := by
  obtain ⟨range, counts, complete⟩ := h
  obtain ⟨-, activeOk⟩ := (namedImagesComplete_iff s).mp complete
  have drawn : ∀ k, s.objects.ActiveNames k → ∃ im, s.images.discardCounts.imageAt k = some im ∧ im.phase = .ready := by
    intro k hk
    obtain ⟨im, him, phase⟩ := activeOk k hk
    simp only [ImageStore.imageAt] at him ⊢
    simp only [entry_discardCounts, ImageEntry.afterDiscard, him, Option.map_some]
    refine ⟨_, rfl, ?_⟩
    split
    · rfl
    · next h => exact phase.resolve_right h
  refine ⟨recordsInRange_discardStaged range, fun k hk => ?_, (namedImagesComplete_iff _).mpr ⟨fun k hk => ?_, fun k hk => ?_⟩⟩
  · change (s.images.discardCounts.entry k).stagedRefs = s.objects.discardStaged.stagedNaming k ∧
      (s.images.discardCounts.entry k).activeRefs = s.objects.discardStaged.activeNaming k
    rw [entry_discardCounts, stagedNaming_discardStaged, activeNaming_discardStaged, ← (counts k hk).2]
    exact ⟨rfl, rfl⟩
  · exact drawn k ((stagedNames_discardStaged s.objects k).mp hk)
  · obtain ⟨im, him, ready⟩ := drawn k hk
    exact ⟨im, him, .inl ready⟩

/-- The clearing leaves an entry no staged reference, and the active ones where no LOADING image has any. -/
theorem afterClear_refs {e : ImageEntry} (loading : ∀ im, e.image = some im → im.phase = .loading → e.activeRefs = 0) :
    e.afterClear.stagedRefs = 0 ∧ e.afterClear.activeRefs = e.activeRefs := by
  unfold ImageEntry.afterClear
  split
  · next freed =>
    refine ⟨rfl, ?_⟩
    unfold ImageEntry.freedByClear at freed
    cases him : e.image with
    | none => simp [him] at freed
    | some im =>
      simp only [him, Bool.or_eq_true, Bool.and_eq_true, decide_eq_true_eq] at freed
      rcases freed with h | ⟨-, h⟩
      · exact (loading im him h).symm
      · exact h.symm
  · split <;> exact ⟨rfl, rfl⟩

/-- The clearing makes an image that is drawn RETIRING, or leaves it so. -/
theorem afterClear_drawn {e : ImageEntry} {im : Image} (him : e.image = some im)
    (phase : im.phase = .ready ∨ im.phase = .retiring) (drawn : 0 < e.activeRefs) :
    ∃ im', e.afterClear.image = some im' ∧ im'.phase = .retiring := by
  have kept : e.freedByClear = false := by
    rcases phase with h | h <;> simp [ImageEntry.freedByClear, him, h, Nat.ne_of_gt drawn]
  unfold ImageEntry.afterClear
  rw [kept, if_neg Bool.false_ne_true]
  rcases phase with h | h
  · have retired : e.retiredByClear = true := by simp [ImageEntry.retiredByClear, him, h, drawn]
    rw [if_pos retired, him]
    exact ⟨_, rfl, rfl⟩
  · have stays : e.retiredByClear = false := by simp [ImageEntry.retiredByClear, him, h]
    rw [stays, if_neg Bool.false_ne_true]
    exact ⟨im, him, h⟩

theorem referenceLegal_clear {s : State} (h : s.ReferenceLegal) : (clearStagedSide s).ReferenceLegal := by
  have loading : ∀ k, k < 128 → ∀ im, (s.images.entry k).image = some im → im.phase = .loading →
      (s.images.entry k).activeRefs = 0 := fun k hk im him hp => by
    have unnamed := unnamed_of_incomplete h (k := k) fun q hq => by
      rw [ImageStore.imageAt, him] at hq
      cases hq
      exact hp
    have := (activeRefs_pos h.2.1 hk).not.mpr unnamed.2
    omega
  obtain ⟨range, counts, complete⟩ := h
  obtain ⟨-, activeOk⟩ := (namedImagesComplete_iff s).mp complete
  refine ⟨recordsInRange_clearStaged range, fun k hk => ?_, (namedImagesComplete_iff _).mpr ⟨fun k hk => ?_, fun k hk => ?_⟩⟩
  · change (s.images.clearCounts.entry k).stagedRefs = s.objects.clearStaged.stagedNaming k ∧
      (s.images.clearCounts.entry k).activeRefs = s.objects.activeNaming k
    rw [entry_clearCounts, stagedNaming_clearStaged, ← (counts k hk).2]
    exact afterClear_refs (loading k hk)
  · exact absurd hk (not_stagedNames_clearStaged s.objects k)
  · obtain ⟨im, him, phase⟩ := activeOk k hk
    have drawn := (activeRefs_pos counts (activeNames_lt range hk)).mpr hk
    change ∃ im, (s.images.clearCounts.entry k).image = some im ∧ _
    rw [entry_clearCounts]
    obtain ⟨im', him', retiring⟩ := afterClear_drawn him phase drawn
    exact ⟨im', him', .inr retiring⟩

/-! ### Every answer -/

theorem referenceLegal_reset : State.reset.ReferenceLegal := by
  refine ⟨recordsInRange_reset, fun k _ => ?_, ?_⟩
  · have staged : ¬0 < ObjectTable.reset.stagedNaming k := by
      rw [stagedNaming_pos]
      rintro ⟨i, o, ho, -⟩
      simp at ho
    have active : ¬0 < ObjectTable.reset.activeNaming k := by
      rw [activeNaming_pos]
      rintro ⟨i, o, ho, -⟩
      simp at ho
    change (ImageStore.reset.entry k).stagedRefs = ObjectTable.reset.stagedNaming k ∧
      (ImageStore.reset.entry k).activeRefs = ObjectTable.reset.activeNaming k
    rw [entry_reset, Nat.eq_zero_of_not_pos staged, Nat.eq_zero_of_not_pos active]
    exact ⟨rfl, rfl⟩
  · constructor <;> intro i o ho <;> simp [State.reset] at ho

/-- Every block's answer keeps the laws. -/
theorem referenceLegal_answer (code : Byte) (p : List Byte) (s : State) (h : s.ReferenceLegal) :
    (dispatch code p s).state.ReferenceLegal := by
  have answered := dispatch_answered code p s
  generalize (dispatch code p s).state = t at answered ⊢
  cases answered with
  | define _ _ range image anchor =>
    exact referenceLegal_edit ((defineInRange_iff p).mp range).1 (editPassed_define range image anchor) h
  | move _ _ range o found => exact referenceLegal_edit (stagedAt_lt found) (editPassed_move range found) h
  | attr _ _ range o found image anchor =>
    exact referenceLegal_edit (stagedAt_lt found) (editPassed_attr range found image anchor) h
  | delete _ _ range o found free => exact referenceLegal_edit range (.delete free) h
  | now => exact (sameTables_applyGeneration s).referenceLegal (referenceLegal_apply h)
  | discard => exact referenceLegal_discard h
  | clearArmed => exact referenceLegal_clear h
  | clearNow => exact (sameTables_applyGeneration _).referenceLegal (referenceLegal_apply (referenceLegal_clear h))
  | create _ handle free =>
    refine referenceLegal_unnamed h (fun j => entry_setEntry _ _ _ _ handle) rfl rfl (unnamed_of_incomplete h fun im him => ?_)
    rw [ImageStore.imageAt, free] at him
    cases him
  | load _ handle im found loading =>
    refine referenceLegal_unnamed h (fun j => entry_setEntry _ _ _ _ handle) rfl rfl (unnamed_of_incomplete h fun q hq => ?_)
    rw [ImageStore.imageAt, found] at hq
    cases hq
    exact loading
  | restart _ handle im found ready staged active =>
    refine referenceLegal_unnamed h (fun j => entry_setEntry _ _ _ _ handle) rfl rfl ⟨?_, ?_⟩
    · rw [← stagedRefs_pos h.2.1 handle]; omega
    · rw [← activeRefs_pos h.2.1 handle]; omega
  | retire _ handle im found ready staged active =>
    refine referenceLegal_entry h (fun j => entry_setEntry _ _ _ _ handle) rfl rfl (fun named => ?_)
      fun _ => ⟨_, rfl, .inr rfl⟩
    rw [← stagedRefs_pos h.2.1 handle] at named
    omega
  | release _ handle im found phase staged active =>
    have unnamed : ¬s.objects.StagedNames (byteAt p 0) ∧ ¬s.objects.ActiveNames (byteAt p 0) := by
      by_cases ready : im.phase = .ready
      · rw [← stagedRefs_pos h.2.1 handle, ← activeRefs_pos h.2.1 handle, staged, active ready]
        exact ⟨Nat.lt_irrefl 0, Nat.lt_irrefl 0⟩
      · refine unnamed_of_incomplete h fun q hq => ?_
        rw [ImageStore.imageAt, found] at hq
        cases hq
        cases hp : im.phase with
        | loading => rfl
        | ready => exact absurd hp ready
        | retiring => exact absurd hp phase
    refine referenceLegal_unnamed h (fun j => entry_freeImage _ _ _ handle) staged.symm ?_ unnamed
    rw [← activeRefs_pos h.2.1 handle] at unnamed
    exact (Nat.eq_zero_of_not_pos unnamed.2).symm
  | _ => exact h

end Sys2Proof.Machine

namespace Sys2Proof.OverlayObjects

open Sys2Proof.Machine

/-- Settles O9: the counts move with the records at an edit, an apply, DISCARD and CLEAR_ALL, and an image command touches a named
image only to retire one that the active side alone names. -/
theorem stepKeepsReferencesExact : Obligations.StepKeepsReferencesExact := fun _ _ hs h =>
  step_keeps State.ReferenceLegal (fun _ _ => SameTables.referenceLegal) referenceLegal_reset (fun _ => referenceLegal_apply)
    referenceLegal_answer hs h

end Sys2Proof.OverlayObjects
end

section
/-! The object commands, check by check (R7 to R15): one lemma for each answer a command can give, and what an accepted command leaves
behind when its block refuses it or edits a record. -/

namespace Sys2Proof.Machine

@[simp] theorem u8_toNat (b : Byte) : u8 b.toNat = b := by simp [u8]

/-! ### An accepted edit -/

/-- A command accepted with `a` whose block replaced record `id`: the record, the staged counts (R8) and staged-dirty change, and
nothing else. -/
def State.edited (s : State) (a : Ack) (id : Nat) (new : Option ObjectFields) : State :=
  { s.accepted a with
    objects := s.objects.setStaged id new
    images := s.images.moveRef ((s.objects.stagedAt id).map ObjectFields.image) (new.map ObjectFields.image)
    generations := { s.generations with stagedDirty := true } }

theorem exec_edited {s : State} {i : Instr} {seq code : Byte} {p : List Byte} {d : List Byte} {id : Nat}
    {new : Option ObjectFields} (hc : carried i = some (.unicast, seq, code, p)) (he : s.Expects seq)
    (hr : dispatch code p (s.opened seq) = ⟨editStaged id new (s.opened seq), .ok, d⟩) :
    exec i s = .next (s.edited ⟨seq, code, .ok, d⟩ id new) := by
  rw [exec_accepted hc he hr rfl rfl rfl]
  rfl

section
variable {s : State} {a : Ack} {id : Nat} {new : Option ObjectFields}

theorem edited_stagedAt (hid : id < 64) (i : Nat) :
    (s.edited a id new).objects.stagedAt i = if i = id then new else s.objects.stagedAt i :=
  stagedAt_setStaged _ _ _ _ hid

theorem edited_entry (h : Nat) (hh : h < 128) : (s.edited a id new).images.entry h =
    s.images.entryAfterEdit ((s.objects.stagedAt id).map ObjectFields.image) (new.map ObjectFields.image) h :=
  entry_moveRef _ _ _ _ hh

theorem moveRef_eq (st : ImageStore) (o i : Option Nat) : st.moveRef o i = { st with directory := (st.moveRef o i).directory } := by
  unfold ImageStore.moveRef
  split
  · rfl
  · cases o <;> cases i <;> rfl

/-- The frame of an edit: the object table, the reference counts and staged-dirty apart, only the acceptance. -/
theorem edited_frame : s.edited a id new = { s.accepted a with
    objects := (s.edited a id new).objects
    images := { s.images with directory := (s.edited a id new).images.directory }
    generations := { s.generations with stagedDirty := true } } := by
  conv_lhs => rw [State.edited, moveRef_eq]
  rfl

/-- An edit that keeps the record's image leaves the image store as it was too. -/
theorem edited_frame_sameImage (same : (s.objects.stagedAt id).map ObjectFields.image = new.map ObjectFields.image) :
    s.edited a id new = { s.accepted a with
      objects := (s.edited a id new).objects
      generations := { s.generations with stagedDirty := true } } := by
  have images : s.images.moveRef ((s.objects.stagedAt id).map ObjectFields.image) (new.map ObjectFields.image) = s.images :=
    if_pos same
  conv_lhs => rw [State.edited, images]
  rfl

end

/-! ### DEFINE_OBJECT (R9) -/

theorem imageRefusal_free {s : State} {h : Nat} (free : s.images.imageAt h = none) : imageRefusal s h = some .noImage := by
  rw [ImageStore.imageAt] at free
  simp only [imageRefusal, free]

theorem imageRefusal_unready {s : State} {h : Nat} {im : Image} (found : s.images.imageAt h = some im)
    (phase : im.phase ≠ .ready) : imageRefusal s h = some .notReady := by
  rw [ImageStore.imageAt] at found
  simp only [imageRefusal, found, if_neg phase]

theorem imageRefusal_ready {s : State} {h : Nat} {im : Image} (found : s.images.imageAt h = some im)
    (phase : im.phase = .ready) : imageRefusal s h = none := by
  rw [ImageStore.imageAt] at found
  simp only [imageRefusal, found, if_pos phase]

theorem checkAnchorOption_passed {t : ObjectTable} {target : Nat} {anchor : Option Nat}
    (h : ∀ named, anchor = some named → checkAnchor t target named = .passed) :
    checkAnchorOption t target anchor = .passed := by
  cases anchor with
  | none => rfl
  | some named => exact h named rfl

section
variable {s : State} {p : List Byte}

theorem commandDefineObject_armed (armed : s.generations.commit.isArmed = true) :
    commandDefineObject p s = ⟨s, .armed, []⟩ := by
  simp [commandDefineObject, armed, refuse]

theorem commandDefineObject_range (idle : s.generations.commit.isArmed = false) (range : ¬defineInRange p = true) :
    commandDefineObject p s = ⟨s, .range, []⟩ := by
  simp [commandDefineObject, idle, range, refuse]

theorem commandDefineObject_image {st : Status} (idle : s.generations.commit.isArmed = false)
    (range : defineInRange p = true) (image : imageRefusal s (byteAt p 1) = some st) :
    commandDefineObject p s = ⟨s, st, []⟩ := by
  have image' : imageRefusal s (defineFields p).image = some st := image
  simp [commandDefineObject, idle, range, image', refuse]

theorem commandDefineObject_anchor {st : Status} {d : List Byte} (idle : s.generations.commit.isArmed = false)
    (range : defineInRange p = true) (image : imageRefusal s (byteAt p 1) = none)
    (anchor : checkAnchorOption s.objects (byteAt p 0) (defineFields p).anchor = .failed st d) :
    commandDefineObject p s = ⟨s, st, d⟩ := by
  have image' : imageRefusal s (defineFields p).image = none := image
  simp [commandDefineObject, idle, range, image', anchor, refuse]

theorem commandDefineObject_ok (idle : s.generations.commit.isArmed = false) (range : defineInRange p = true)
    (image : imageRefusal s (byteAt p 1) = none)
    (anchor : checkAnchorOption s.objects (byteAt p 0) (defineFields p).anchor = .passed) :
    commandDefineObject p s = ⟨editStaged (byteAt p 0) (some (defineFields p)) s, .ok,
      [u8 (byteAt p 0), u8 (stagedDepth (editStaged (byteAt p 0) (some (defineFields p)) s) (byteAt p 0))]⟩ := by
  have image' : imageRefusal s (defineFields p).image = none := image
  simp [commandDefineObject, idle, range, image', anchor]

/-! ### MOVE_OBJECT (R10) -/

theorem commandMoveObject_armed (armed : s.generations.commit.isArmed = true) : commandMoveObject p s = ⟨s, .armed, []⟩ := by
  simp [commandMoveObject, armed, refuse]

theorem commandMoveObject_range (idle : s.generations.commit.isArmed = false) (range : ¬moveInRange p = true) :
    commandMoveObject p s = ⟨s, .range, []⟩ := by
  simp [commandMoveObject, idle, range, refuse]

theorem commandMoveObject_free (idle : s.generations.commit.isArmed = false) (range : moveInRange p = true)
    (free : s.objects.stagedAt (byteAt p 0) = none) : commandMoveObject p s = ⟨s, .noObject, []⟩ := by
  simp [commandMoveObject, idle, range, free, refuse]

theorem commandMoveObject_ok {o : ObjectFields} (idle : s.generations.commit.isArmed = false) (range : moveInRange p = true)
    (found : s.objects.stagedAt (byteAt p 0) = some o) : commandMoveObject p s =
      ⟨editStaged (byteAt p 0) (some { o with x := s16At p 1, y := s16At p 3 }) s, .ok, [u8 (byteAt p 0)]⟩ := by
  simp [commandMoveObject, idle, range, found]

/-! ### SET_OBJECT_ATTR (R11, R12) -/

theorem commandSetObjectAttr_armed (armed : s.generations.commit.isArmed = true) :
    commandSetObjectAttr p s = ⟨s, .armed, []⟩ := by
  simp [commandSetObjectAttr, armed, refuse]

theorem commandSetObjectAttr_range (idle : s.generations.commit.isArmed = false) (range : ¬attrInRange p = true) :
    commandSetObjectAttr p s = ⟨s, .range, []⟩ := by
  simp [commandSetObjectAttr, idle, range, refuse]

theorem commandSetObjectAttr_free (idle : s.generations.commit.isArmed = false) (range : attrInRange p = true)
    (free : s.objects.stagedAt (byteAt p 0) = none) : commandSetObjectAttr p s = ⟨s, .noObject, []⟩ := by
  simp [commandSetObjectAttr, idle, range, free, refuse]

theorem commandSetObjectAttr_image {o : ObjectFields} {st : Status} (idle : s.generations.commit.isArmed = false)
    (range : attrInRange p = true) (found : s.objects.stagedAt (byteAt p 0) = some o)
    (image : imageRefusalOption s (attrImage p) = some st) : commandSetObjectAttr p s = ⟨s, st, []⟩ := by
  simp [commandSetObjectAttr, idle, range, found, image, refuse]

theorem commandSetObjectAttr_anchor {o : ObjectFields} {st : Status} {d : List Byte}
    (idle : s.generations.commit.isArmed = false) (range : attrInRange p = true)
    (found : s.objects.stagedAt (byteAt p 0) = some o) (image : imageRefusalOption s (attrImage p) = none)
    (anchor : checkAnchorOption s.objects (byteAt p 0) (attrAnchor p) = .failed st d) :
    commandSetObjectAttr p s = ⟨s, st, d⟩ := by
  simp [commandSetObjectAttr, idle, range, found, image, anchor, refuse]

theorem commandSetObjectAttr_ok {o : ObjectFields} (idle : s.generations.commit.isArmed = false)
    (range : attrInRange p = true) (found : s.objects.stagedAt (byteAt p 0) = some o)
    (image : imageRefusalOption s (attrImage p) = none)
    (anchor : checkAnchorOption s.objects (byteAt p 0) (attrAnchor p) = .passed) :
    commandSetObjectAttr p s = ⟨editStaged (byteAt p 0) (some (attrFields p o)) s, .ok,
      [u8 (byteAt p 0), u8 (stagedDepth (editStaged (byteAt p 0) (some (attrFields p o)) s) (byteAt p 0))]⟩ := by
  simp [commandSetObjectAttr, idle, range, found, image, anchor]

/-- With no flag set no item is present. -/
theorem attrFlag_of_noFlags (h : u16At p 1 = 0) (i : Nat) : attrFlag p i = false := by simp [attrFlag, h]

/-- With no item present the record stands. -/
theorem attrFields_noFlags (h : u16At p 1 = 0) (o : ObjectFields) : attrFields p o = o := by
  simp [attrFields, attrByte_eq, attrFlag_of_noFlags h]

/-! ### DELETE_OBJECT (R15) -/

theorem commandDeleteObject_armed (armed : s.generations.commit.isArmed = true) :
    commandDeleteObject p s = ⟨s, .armed, []⟩ := by
  simp [commandDeleteObject, armed, refuse]

theorem commandDeleteObject_range (idle : s.generations.commit.isArmed = false) (range : ¬byteAt p 0 < 64) :
    commandDeleteObject p s = ⟨s, .range, []⟩ := by
  simp [commandDeleteObject, idle, range, refuse]

theorem commandDeleteObject_free (idle : s.generations.commit.isArmed = false) (range : byteAt p 0 < 64)
    (free : s.objects.stagedAt (byteAt p 0) = none) : commandDeleteObject p s = ⟨s, .noObject, []⟩ := by
  simp [commandDeleteObject, idle, range, free, refuse]

theorem commandDeleteObject_inUse (idle : s.generations.commit.isArmed = false) (range : byteAt p 0 < 64)
    (found : s.objects.stagedAt (byteAt p 0) ≠ none) (anchored : anchoredTo s.objects.stagedAt (byteAt p 0) ≠ []) :
    commandDeleteObject p s = ⟨s, .inUse, []⟩ := by
  obtain ⟨o, ho⟩ := Option.ne_none_iff_exists'.mp found
  simp [commandDeleteObject, idle, range, ho, anchored, refuse]

theorem commandDeleteObject_ok {o : ObjectFields} (idle : s.generations.commit.isArmed = false) (range : byteAt p 0 < 64)
    (found : s.objects.stagedAt (byteAt p 0) = some o) (unanchored : anchoredTo s.objects.stagedAt (byteAt p 0) = []) :
    commandDeleteObject p s = ⟨editStaged (byteAt p 0) none s, .ok, [u8 (byteAt p 0)]⟩ := by
  simp [commandDeleteObject, idle, range, found, unanchored]

end

end Sys2Proof.Machine

namespace Sys2Proof.OverlayObjects

open Sys2Proof.Machine

/-- Settles O27, answer by answer: the three checks of every definition, the anchor checks of a present anchor, and the record
written. -/
theorem defineObjectWritesTheRecord : Obligations.DefineObjectWritesTheRecord := by
  unfold Obligations.DefineObjectWritesTheRecord
  intro s seq p he hl id anchor inRange new refusal
  have run := dispatch_defineObject (s.opened seq) (p := p) (beq_iff_eq.mpr hl)
  have range : defineInRange p = true ↔ inRange := defineInRange_iff p
  have refused : ∀ {st d}, commandDefineObject p (s.opened seq) = ⟨s.opened seq, st, d⟩ → refusal st d := fun h =>
    exec_answered rfl he (run.trans h)
  refine ⟨fun ha => refused (commandDefineObject_armed (armed_true ha)),
    fun hi hr => refused (commandDefineObject_range (armed_false hi) (range.not.mpr hr)),
    fun hi hr hm => refused (commandDefineObject_image (armed_false hi) (range.mpr hr) (imageRefusal_free hm)),
    fun im hi hr hm => ⟨fun hp => ?_, fun hp named st d hn hf => ?_, fun hp hn => ?_⟩⟩
  · exact refused (commandDefineObject_image (armed_false hi) (range.mpr hr) (imageRefusal_unready hm hp))
  · refine refused (commandDefineObject_anchor (armed_false hi) (range.mpr hr) (imageRefusal_ready hm hp) ?_)
    have : (defineFields p).anchor = some named := hn
    rw [this]
    exact hf
  · have ok := commandDefineObject_ok (s := s.opened seq) (armed_false hi) (range.mpr hr) (imageRefusal_ready hm hp)
      (checkAnchorOption_passed hn)
    exact ⟨_, exec_edited rfl he (run.trans ok), edited_stagedAt hr.1, rfl, edited_entry, edited_frame⟩

/-- Settles O28, answer by answer: the image stands, so no reference count moves. -/
theorem moveObjectSetsThePosition : Obligations.MoveObjectSetsThePosition := by
  unfold Obligations.MoveObjectSetsThePosition
  intro s seq p he hl id inRange
  have run := dispatch_moveObject (s.opened seq) (p := p) (beq_iff_eq.mpr hl)
  have range : moveInRange p = true ↔ inRange := moveInRange_iff p
  refine ⟨fun o hi hr ho => ?_, fun ha => ?_, fun hi hr => ?_, fun hi hr ho => ?_⟩
  · have ok := commandMoveObject_ok (s := s.opened seq) (armed_false hi) (range.mpr hr) ho
    refine ⟨_, exec_edited rfl he (run.trans ok), edited_stagedAt hr.1, rfl, edited_frame_sameImage ?_⟩
    rw [show s.objects.stagedAt (byteAt p 0) = some o from ho]
    rfl
  · exact exec_answered rfl he (run.trans (commandMoveObject_armed (armed_true ha)))
  · exact exec_answered rfl he (run.trans (commandMoveObject_range (armed_false hi) (range.not.mpr hr)))
  · exact exec_answered rfl he (run.trans (commandMoveObject_free (armed_false hi) (range.mpr hr) ho))

/-- Settles O29, answer by answer: each item's clause is the model's, flag by flag. -/
theorem setObjectAttrAppliesItsItems : Obligations.SetObjectAttrAppliesItsItems := by
  unfold Obligations.SetObjectAttrAppliesItsItems
  intro s seq p he hl id on v clip inRange refusal
  have run := dispatch_setObjectAttr (s.opened seq) hl
  have range : attrInRange p = true ↔ inRange := attrInRange_iff p
  have refused : ∀ {st d}, commandSetObjectAttr p (s.opened seq) = ⟨s.opened seq, st, d⟩ → refusal st d := fun h =>
    exec_answered rfl he (run.trans h)
  refine ⟨fun ha => refused (commandSetObjectAttr_armed (armed_true ha)),
    fun hi hr => refused (commandSetObjectAttr_range (armed_false hi) (range.not.mpr hr)),
    fun hi hr ho => refused (commandSetObjectAttr_free (armed_false hi) (range.mpr hr) ho),
    fun o hi hr ho => ?_⟩
  intro ready new
  have written : attrFields p o = new := by simp only [attrFields, attrByte_eq, attrValue_zero, attrValue_one]; rfl
  have image : ∀ {r}, on 0 → imageRefusal (s.opened seq) (v 0 0) = r → imageRefusalOption (s.opened seq) (attrImage p) = r := by
    intro r h0 h
    rw [attrImage_eq, if_pos h0]
    exact h
  have imageOk : ready → imageRefusalOption (s.opened seq) (attrImage p) = none := by
    intro h
    by_cases h0 : on 0
    · obtain ⟨im, him, hp⟩ := h h0
      exact image h0 (imageRefusal_ready him hp)
    · rw [attrImage_eq, if_neg h0]
      rfl
  refine ⟨fun h0 hm => ?_, fun im h0 hm hp => ?_, fun st d hd h10 hf => ?_, fun h => ?_, fun hd h10 => ?_⟩
  · exact refused (commandSetObjectAttr_image (armed_false hi) (range.mpr hr) ho (image h0 (imageRefusal_free hm)))
  · exact refused (commandSetObjectAttr_image (armed_false hi) (range.mpr hr) ho (image h0 (imageRefusal_unready hm hp)))
  · refine refused (commandSetObjectAttr_anchor (armed_false hi) (range.mpr hr) ho (imageOk hd) ?_)
    rw [attrAnchor_eq, if_pos h10]
    exact hf
  · exact written.symm.trans (attrFields_noFlags h o)
  · have ok := commandSetObjectAttr_ok (s := s.opened seq) (armed_false hi) (range.mpr hr) ho (imageOk hd)
      (checkAnchorOption_passed fun named hn => by
        rw [attrAnchor_eq, Option.ite_none_right_eq_some, Option.some.injEq] at hn
        exact hn.2 ▸ h10 hn.1)
    rw [written] at ok
    refine ⟨_, exec_edited rfl he (run.trans ok), edited_stagedAt hr.1, rfl, fun h hh => ?_, edited_frame⟩
    rw [edited_entry h hh, show s.objects.stagedAt (byteAt p 0) = some o from ho]
    rfl

/-- Settles O30, answer by answer: the search of the 64 records for one that anchors to `id` finds one exactly where there is one. -/
theorem deleteObjectFreesTheRecord : Obligations.DeleteObjectFreesTheRecord := by
  unfold Obligations.DeleteObjectFreesTheRecord
  intro s seq b he id anchored refusal
  have run := dispatch_deleteObject (s.opened seq) (p := [b]) rfl
  have refused : ∀ {st}, commandDeleteObject [b] (s.opened seq) = ⟨s.opened seq, st, []⟩ → refusal st := fun h =>
    exec_answered rfl he (run.trans h)
  have search : anchoredTo s.objects.stagedAt id = [] ↔ ¬anchored := anchoredTo_eq_nil
  refine ⟨fun o hi hr ho hn => ?_, fun ha => refused (commandDeleteObject_armed (armed_true ha)),
    fun hi hr => refused (commandDeleteObject_range (armed_false hi) (Nat.not_lt.mpr hr)),
    fun hi hr ho => refused (commandDeleteObject_free (armed_false hi) hr ho),
    fun hi hr ho hn => refused (commandDeleteObject_inUse (armed_false hi) hr ho fun h => search.mp h hn)⟩
  have ok := commandDeleteObject_ok (s := s.opened seq) (p := [b]) (armed_false hi) hr ho (search.mpr hn)
  have done := exec_edited (i := .deleteObject .unicast seq [b]) rfl he (run.trans ok)
  rw [show u8 (byteAt [b] 0) = b from u8_toNat b] at done
  refine ⟨_, done, edited_stagedAt hr, rfl, fun h hh => ?_, edited_frame⟩
  rw [edited_entry h hh, show s.objects.stagedAt (byteAt [b] 0) = some o from ho]
  rfl

end Sys2Proof.OverlayObjects
end

section
/-! The three commands that return a table's contents (R16, R84, R96), and the data they return. -/

namespace Sys2Proof.Machine

section
variable {s : State} {p : List Byte}

/-! ### READ_OBJECT (R16) -/

theorem commandReadObject_ok (range : byteAt p 0 < 64 ∧ byteAt p 1 ≤ 1) :
    commandReadObject p s = ⟨s, .ok, readObjectData s.objects (byteAt p 1) (byteAt p 0)⟩ := by
  simp [commandReadObject, isChoice, range]

theorem commandReadObject_range (range : ¬(byteAt p 0 < 64 ∧ byteAt p 1 ≤ 1)) : commandReadObject p s = ⟨s, .range, []⟩ := by
  have out : (decide (byteAt p 0 < 64) && isChoice (byteAt p 1)) = false := by simpa [isChoice] using range
  simp [commandReadObject, out, refuse]

theorem readObjectData_staged (t : ObjectTable) (id : Nat) : readObjectData t 0 id =
    match t.stagedAt id with
    | none => [0, u8 id, 0]
    | some o => [0, u8 id, 1] ++ o.bytes := rfl

theorem readObjectData_active (t : ObjectTable) (id : Nat) : readObjectData t 1 id =
    match t.activeAt id with
    | none => [1, u8 id, 0]
    | some o => [1, u8 id, 1] ++ o.fields.bytes ++ beSigned16 o.ex ++ beSigned16 o.ey := rfl

/-! ### IMAGE_INFO (R84) -/

theorem commandImageInfo_ok (range : byteAt p 0 < 128) :
    commandImageInfo p s = ⟨s, .ok, imageInfoData s.images (byteAt p 0)⟩ := by
  simp [commandImageInfo, range]

theorem commandImageInfo_range (range : ¬byteAt p 0 < 128) : commandImageInfo p s = ⟨s, .range, []⟩ := by
  simp [commandImageInfo, range, refuse]

/-- The six bytes every IMAGE_INFO returns. -/
theorem imageInfoData_take (st : ImageStore) (h : Nat) : (imageInfoData st h).take 6 =
    [u8 h, (st.entry h).stateCode] ++ be16 st.freePages.length ++ [u8 (st.entry h).stagedRefs, u8 (st.entry h).activeRefs] := rfl

theorem imageInfoData_free {st : ImageStore} {h : Nat} (free : st.imageAt h = none) : (imageInfoData st h).length = 6 := by
  rw [ImageStore.imageAt] at free
  simp only [imageInfoData, free]
  rfl

/-- The bytes IMAGE_INFO returns of an image. -/
theorem imageInfoData_found {st : ImageStore} {h : Nat} {im : Image} (found : st.imageAt h = some im) :
    imageInfoData st h =
      [u8 h, (st.entry h).stateCode] ++ be16 st.freePages.length ++
        [u8 (st.entry h).stagedRefs, u8 (st.entry h).activeRefs] ++
        (be16 im.width ++ be16 im.height ++ [u8 im.depth] ++ be32 im.size ++ be16 im.pageMap.length ++
          be16 ((im.pageMap.head?.map Fin.val).getD 0) ++ be16 ((im.pageMap.getLast?.map Fin.val).getD 0) ++
          be32 im.cursor) := by
  rw [ImageStore.imageAt] at found
  simp only [imageInfoData, found]
  rfl

/-! ### READ_PALETTE (R96) -/

theorem commandReadPalette_ok (range : byteAt p 0 < 8 ∧ byteAt p 2 ≤ 1) :
    commandReadPalette p s = ⟨s, .ok, readPaletteData s.palettes (byteAt p 0) (byteAt p 1) (byteAt p 2 == 1)⟩ := by
  simp [commandReadPalette, isChoice, range]

theorem commandReadPalette_range (range : ¬(byteAt p 0 < 8 ∧ byteAt p 2 ≤ 1)) :
    commandReadPalette p s = ⟨s, .range, []⟩ := by
  have out : (decide (byteAt p 0 < 8) && isChoice (byteAt p 2)) = false := by simpa [isChoice] using range
  simp [commandReadPalette, out, refuse]

end

theorem isFor_iff (palette index : Nat) (w : PaletteWrite) :
    PaletteWrite.isFor palette index w = true ↔ w.palette = palette ∧ w.index = index := by simp [PaletteWrite.isFor]

section
variable {u : PaletteUnit} {palette index : Nat}

/-- Without the flag, or with no write pending for the pair, the active entry is returned. -/
theorem readPaletteData_active {wantPending : Bool}
    (h : wantPending = false ∨ ∀ w ∈ u.writes, ¬(w.palette = palette ∧ w.index = index)) :
    readPaletteData u palette index wantPending =
      [u8 palette, u8 index, 0] ++ (u.entryAt palette index).bytes ++ [0] ++ be16 u.writes.length := by
  cases wantPending with
  | false => rfl
  | true =>
    have none_pending : u.writes.find? (PaletteWrite.isFor palette index) = none :=
      List.find?_eq_none.mpr fun w hw => (isFor_iff palette index w).not.mpr (h.resolve_left nofun w hw)
    simp [readPaletteData, none_pending]

/-- With the flag the first write pending for the pair is returned, with its place in the list. -/
theorem readPaletteData_pending {k : Nat} {w : PaletteWrite} (hk : u.writes[k]? = some w)
    (hw : w.palette = palette ∧ w.index = index)
    (first : ∀ j v, j < k → u.writes[j]? = some v → ¬(v.palette = palette ∧ v.index = index)) :
    readPaletteData u palette index true =
      [u8 palette, u8 index, 1] ++ w.entry.bytes ++ [u8 k] ++ be16 u.writes.length := by
  obtain ⟨hlen, rfl⟩ := List.getElem?_eq_some_iff.mp hk
  have before : ∀ j (hj : j < k), PaletteWrite.isFor palette index (u.writes[j]'(hj.trans hlen)) = false := fun j hj => by
    rw [← Bool.not_eq_true, isFor_iff]
    exact first j _ hj (List.getElem?_eq_getElem _)
  have place : u.writes.findIdx (PaletteWrite.isFor palette index) = k :=
    (List.findIdx_eq hlen).mpr ⟨(isFor_iff palette index _).mpr hw, before⟩
  have found : u.writes.find? (PaletteWrite.isFor palette index) = some u.writes[k] := by
    rw [List.find?_eq_some_iff_getElem]
    exact ⟨(isFor_iff palette index _).mpr hw, k, hlen, rfl, fun j hj => by simp [before j hj]⟩
  simp [readPaletteData, found, place]

end

theorem toNat_le_one {b : Byte} : b = 0 ∨ b = 1 ↔ b.toNat ≤ 1 := by
  constructor
  · rintro (rfl | rfl) <;> decide
  · intro h
    rcases Nat.le_one_iff_eq_zero_or_eq_one.mp h with h | h
    · exact .inl (BitVec.eq_of_toNat_eq h)
    · exact .inr (BitVec.eq_of_toNat_eq h)

end Sys2Proof.Machine

namespace Sys2Proof.OverlayObjects

open Sys2Proof.Machine

/-- What READ_OBJECT answers in range (R16). -/
theorem readObject_returns {s : State} {seq : Byte} (he : s.Expects seq) (a b : Byte) (ha : a.toNat < 64) (hb : b = 0 ∨ b = 1) :
    ∃ d, exec (.readObject .unicast seq [a, b]) s = .next (s.accepted ⟨seq, codeReadObject, .ok, d⟩) ∧
      (b = 0 → d = match s.objects.stagedAt a.toNat with
        | none => [0, a, 0]
        | some o => [0, a, 1] ++ o.bytes) ∧
      (b = 1 → d = match s.objects.activeAt a.toNat with
        | none => [1, a, 0]
        | some o => [1, a, 1] ++ o.fields.bytes ++ beSigned16 o.ex ++ beSigned16 o.ey) := by
  have ok := commandReadObject_ok (s := s.opened seq) (p := [a, b]) ⟨ha, toNat_le_one.mp hb⟩
  refine ⟨_, exec_answered rfl he ((dispatch_readObject _ rfl).trans ok), ?_, ?_⟩
  · rintro rfl
    refine (readObjectData_staged s.objects a.toNat).trans ?_
    rw [u8_toNat]
  · rintro rfl
    refine (readObjectData_active s.objects a.toNat).trans ?_
    rw [u8_toNat]

/-- What IMAGE_INFO answers in range (R84). -/
theorem imageInfo_returns {s : State} {seq : Byte} (he : s.Expects seq) (a : Byte) (ha : a.toNat < 128) :
    ∃ d, exec (.imageInfo .unicast seq [a]) s = .next (s.accepted ⟨seq, codeImageInfo, .ok, d⟩) ∧
      d.take 6 = [a, (s.images.entry a.toNat).stateCode] ++ be16 s.images.freePages.length ++
        [u8 (s.images.entry a.toNat).stagedRefs, u8 (s.images.entry a.toNat).activeRefs] ∧
      (s.images.imageAt a.toNat = none → d.length = 6) ∧
      ∀ im, s.images.imageAt a.toNat = some im → d.length = 25 ∧
        (d.drop 6).take 9 = be16 im.width ++ be16 im.height ++ [u8 im.depth] ++ be32 im.size ∧
        (d.drop 15).take 2 = be16 im.pageMap.length ∧ d.drop 21 = be32 im.cursor ∧
        ∀ first last, im.pageMap.head? = some first → im.pageMap.getLast? = some last →
          (d.drop 17).take 4 = be16 first.val ++ be16 last.val := by
  have ok := commandImageInfo_ok (s := s.opened seq) (p := [a]) ha
  refine ⟨_, exec_answered rfl he ((dispatch_imageInfo _ rfl).trans ok), ?_, imageInfoData_free, fun im found => ?_⟩
  · refine (imageInfoData_take s.images a.toNat).trans ?_
    rw [u8_toNat]
  · have data : imageInfoData (s.opened seq).images (byteAt [a] 0) = _ := imageInfoData_found found
    rw [data]
    refine ⟨rfl, rfl, rfl, rfl, fun first last hf hl => ?_⟩
    rw [hf, hl]
    rfl

/-- What READ_PALETTE answers in range (R96). -/
theorem readPalette_returns {s : State} {seq : Byte} (he : s.Expects seq) (a i f : Byte) (ha : a.toNat < 8)
    (hf : f = 0 ∨ f = 1) :
    ∃ d, exec (.readPalette .unicast seq [a, i, f]) s = .next (s.accepted ⟨seq, codeReadPalette, .ok, d⟩) ∧
      ((f = 0 ∨ ∀ w ∈ s.palettes.writes, ¬(w.palette = a.toNat ∧ w.index = i.toNat)) →
        d = [a, i, 0] ++ (s.palettes.entryAt a.toNat i.toNat).bytes ++ [0] ++ be16 s.palettes.writes.length) ∧
      (f = 1 → ∀ k w, s.palettes.writes[k]? = some w → w.palette = a.toNat → w.index = i.toNat →
        (∀ j v, j < k → s.palettes.writes[j]? = some v → ¬(v.palette = a.toNat ∧ v.index = i.toNat)) →
        d = [a, i, 1] ++ w.entry.bytes ++ [u8 k] ++ be16 s.palettes.writes.length) := by
  have ok := commandReadPalette_ok (s := s.opened seq) (p := [a, i, f]) ⟨ha, toNat_le_one.mp hf⟩
  refine ⟨_, exec_answered rfl he ((dispatch_readPalette _ rfl).trans ok), fun h => ?_, ?_⟩
  · refine (readPaletteData_active (u := s.palettes) (palette := a.toNat) (index := i.toNat) (h.imp ?_ id)).trans ?_
    · rintro rfl
      rfl
    · rw [u8_toNat, u8_toNat]
  · rintro rfl k w hk hp hi first
    refine (readPaletteData_pending (u := s.palettes) hk ⟨hp, hi⟩ first).trans ?_
    rw [u8_toNat, u8_toNat]

/-- Settles O31, command by command. -/
theorem readCommandsReturnWithoutChange : Obligations.ReadCommandsReturnWithoutChange := by
  unfold Obligations.ReadCommandsReturnWithoutChange
  intro s seq he
  refine ⟨readObject_returns he, fun a b h => ?_, imageInfo_returns he, fun a h => ?_, readPalette_returns he,
    fun a i f h => ?_⟩
  · refine exec_answered rfl he ((dispatch_readObject _ rfl).trans (commandReadObject_range ?_))
    rintro ⟨h1 : a.toNat < 64, h2 : b.toNat ≤ 1⟩
    omega
  · exact exec_answered rfl he ((dispatch_imageInfo _ rfl).trans (commandImageInfo_range (Nat.not_lt.mpr h)))
  · refine exec_answered rfl he ((dispatch_readPalette _ rfl).trans (commandReadPalette_range ?_))
    rintro ⟨h1 : a.toNat < 8, h2 : f.toNat ≤ 1⟩
    omega

end Sys2Proof.OverlayObjects
end

section
/-! The laws of Safety.lean in the state after reset, block by block (R2, R23, R45, R68, R85, R87, R99, R118, R120, R133, R149). -/

namespace Sys2Proof.Machine

theorem tracker_reset_legal : Tracker.reset.Legal := by constructor <;> simp [Tracker.reset]

theorem filter_reset_legal : Filter.reset.Legal := by
  constructor <;> simp [Filter.reset, releasedPart, heldPart]

theorem reset_channelLegal : State.reset.ChannelLegal := by
  refine ⟨filter_reset_legal, fun h => ?_, ?_⟩
  · cases h
  · constructor <;> simp [State.reset, Filter.reset, State.receiving]

theorem session_reset_legal : Session.reset.Legal := by constructor <;> simp [Session.reset]

theorem reports_reset_legal : ReportUnit.reset.Legal := by constructor <;> simp [ReportUnit.reset]

/-- Every lane is DOWN, so there is nothing to decide. -/
theorem reset_arbiterSettled : State.reset.ArbiterSettled := fun up => by cases up

/-- The free page list names every page once and no entry holds any. -/
theorem images_reset_pageLaw : ImageStore.reset.PageLaw := by
  intro p
  have held : (ImageStore.reset.directory.toList.map fun e => e.pages.count p).sum = 0 := by
    rw [directory_toList, List.map_map]
    refine List.sum_eq_zero fun n hn => ?_
    obtain ⟨h, -, rfl⟩ := List.mem_map.mp hn
    rw [Function.comp_apply, entry_reset]
    rfl
  have listed : ImageStore.reset.freePages.count p = 1 := by
    simp only [ImageStore.reset]
    exact count_finRange p
  rw [ImageStore.pageUses, held, listed]

theorem images_reset_legal : ImageStore.reset.Legal := by
  refine ⟨images_reset_pageLaw, fun h im found => ?_, rfl⟩
  rw [ImageStore.imageAt, entry_reset] at found
  cases found

theorem colour_zero_inRange : Colour.zero.InRange := by simp [Colour.InRange, Colour.zero]

theorem palettes_reset_legal : PaletteUnit.reset.Legal where
  entries p i := by
    have zero : PaletteUnit.reset.entryAt p i = PaletteEntry.zero := by
      simp only [PaletteUnit.reset, PaletteUnit.entryAt, getD_replicate]
    rw [zero]
    exact ⟨colour_zero_inRange, Nat.zero_le 15⟩
  writes := nofun
  length := Nat.zero_le 256
  once := .nil

theorem generations_reset_legal : Generations.reset.Legal := ⟨colour_zero_inRange, colour_zero_inRange⟩

theorem reset_compositorLegal : State.reset.CompositorLegal := by constructor <;> simp [State.reset, Compositor.reset]

end Sys2Proof.Machine

namespace Sys2Proof.OverlayObjects

open Sys2Proof.Machine

/-- Settles O2, block by block. -/
theorem resetStateIsLegal : Obligations.ResetStateIsLegal :=
  ⟨tracker_reset_legal, reset_channelLegal, session_reset_legal, reports_reset_legal, reset_arbiterSettled, images_reset_legal,
    referenceLegal_reset, anchorLaw_reset, positionsResolved_reset, palettes_reset_legal, generations_reset_legal,
    reset_compositorLegal⟩

end Sys2Proof.OverlayObjects
end

section
/-! The laws of colours, alphas and pending palette writes (R20, R21, R86, R89), behind an apply and every answer of a block. -/

namespace Sys2Proof.Machine

/-! ### Palette entries (R86, R93) -/

theorem paletteEntry_zero_inRange : PaletteEntry.zero.InRange := ⟨colour_zero_inRange, Nat.zero_le 15⟩

/-- Outside the palettes that exist a read gives the default. -/
theorem entryAt_outside (u : PaletteUnit) {p i : Nat} (h : ¬(p < 8 ∧ i < 256)) : u.entryAt p i = PaletteEntry.zero := by
  unfold PaletteUnit.entryAt
  by_cases hp : p < 8
  · exact getD_ge _ (Nat.le_of_not_lt fun hi => h ⟨hp, hi⟩) _
  · rw [getD_ge u.active (Nat.le_of_not_lt hp), getD_replicate]

theorem writeActive_inRange {u : PaletteUnit} {w : PaletteWrite} (entries : ∀ p i, (u.entryAt p i).InRange)
    (write : w.entry.InRange) (p i : Nat) : ((u.writeActive w).entryAt p i).InRange := by
  by_cases inside : p < 8 ∧ i < 256
  · rw [entryAt_writeActive u w p i inside.1 inside.2]
    split
    · exact write
    · exact entries p i
  · rw [entryAt_outside _ inside]
    exact paletteEntry_zero_inRange

theorem foldl_writeActive_inRange (l : List PaletteWrite) {u : PaletteUnit} (entries : ∀ p i, (u.entryAt p i).InRange)
    (writes : ∀ w ∈ l, w.entry.InRange) (p i : Nat) : ((l.foldl PaletteUnit.writeActive u).entryAt p i).InRange := by
  induction l generalizing u with
  | nil => exact entries p i
  | cons w l ih =>
    exact ih (writeActive_inRange entries (writes w List.mem_cons_self)) fun v hv => writes v (List.mem_cons_of_mem w hv)

/-! ### The palette unit's laws -/

theorem palettesLegal_noWrites {u : PaletteUnit} (entries : ∀ p i, (u.entryAt p i).InRange) :
    PaletteUnit.Legal { u with writes := [] } := ⟨entries, nofun, Nat.zero_le 256, .nil⟩

theorem palettesLegal_applyWrites {u : PaletteUnit} (h : u.Legal) : u.applyWrites.Legal :=
  palettesLegal_noWrites (foldl_writeActive_inRange u.writes h.entries fun w hw => (h.writes w hw).2.2)

theorem nodup_foldl_putWrite (ws : List PaletteWrite) {l : List PaletteWrite}
    (h : (l.map fun v => (v.palette, v.index)).Nodup) :
    ((ws.foldl putWrite l).map fun v => (v.palette, v.index)).Nodup := by
  induction ws generalizing l with
  | nil => exact h
  | cons w ws ih => exact ih (nodup_putWrite w h)

/-- A run of writes in range to different pairs, that adds no more pairs than there is room for, keeps the laws (R91, R92). -/
theorem palettesLegal_putWrites {u : PaletteUnit} {ws : List PaletteWrite} (h : u.Legal)
    (range : ∀ w ∈ ws, w.palette < 8 ∧ w.index < 256 ∧ w.entry.InRange)
    (different : (ws.map fun v => (v.palette, v.index)).Nodup) (room : u.writes.length + addedCount u.writes ws ≤ 256) :
    PaletteUnit.Legal { u with writes := ws.foldl putWrite u.writes } where
  entries := h.entries
  writes w hw := by
    rcases mem_foldl hw with new | ⟨old, -⟩
    · exact range w new
    · exact h.writes w old
  length := (length_foldl ws u.writes different).trans_le room
  once := (once_iff _).mpr (nodup_foldl_putWrite ws ((once_iff _).mp h.once))

theorem palettesLegal_answer (code : Byte) (p : List Byte) (s : State) (h : s.palettes.Legal) :
    (dispatch code p s).state.palettes.Legal := by
  have answered := dispatch_answered code p s
  generalize (dispatch code p s).state = t at answered ⊢
  cases answered with
  | palette _ _ range room =>
    exact palettesLegal_putWrites h (fun w hw => paletteWrites_range range hw) (paletteWrites_nodup p) room
  | now => exact palettesLegal_applyWrites h
  | discard => exact palettesLegal_noWrites h.entries
  | clearArmed => exact palettesLegal_noWrites h.entries
  | clearNow => exact palettesLegal_applyWrites (palettesLegal_noWrites h.entries)
  | _ => exact h

/-! ### The fill colours (R20, R21) -/

theorem generationsLegal_answer (code : Byte) (p : List Byte) (s : State) (h : s.generations.Legal) :
    (dispatch code p s).state.generations.Legal := by
  have answered := dispatch_answered code p s
  generalize (dispatch code p s).state = t at answered ⊢
  cases answered with
  | mode _ _ _ _ range => exact ⟨(colourInRange_iff _).mp range, h.2⟩
  | discard => exact ⟨h.2, h.2⟩
  | now => exact ⟨h.1, h.1⟩
  | clearNow => exact ⟨h.1, h.1⟩
  | _ => exact h

end Sys2Proof.Machine

namespace Sys2Proof.GenerationsAndCommit

open Sys2Proof.Machine

/-- Settles O12: colours enter by SET_MODE and WRITE_PALETTE alone, which check them, and an apply, DISCARD and CLEAR_ALL move or
drop colours that stand. -/
theorem stepKeepsColoursInRange : Obligations.StepKeepsColoursInRange :=
  ⟨fun _ _ hs h => step_keeps (fun s => s.palettes.Legal) (fun _ _ same hs => same.palettes ▸ hs) palettes_reset_legal
      (fun _ => palettesLegal_applyWrites) palettesLegal_answer hs h,
    fun _ _ hs h => step_keeps (fun s => s.generations.Legal) (fun _ _ same hs => same.generations ▸ hs) generations_reset_legal
      (fun _ hs => ⟨hs.1, hs.1⟩) generationsLegal_answer hs h⟩

end Sys2Proof.GenerationsAndCommit
end

section
/-! The two sides of the tables over all commands: the active side changes at an apply alone (R35), and while armed the staged side
changes at an apply or at CLEAR_ALL alone (R38). -/

namespace Sys2Proof.Machine

theorem SameTables.activeSide {s t : State} (same : SameTables s t) : t.activeSide = s.activeSide := by
  simp only [State.activeSide, same.objects, same.generations, same.palettes]

theorem SameTables.stagedSide {s t : State} (same : SameTables s t) : t.stagedSide = s.stagedSide := by
  simp only [State.stagedSide, same.objects, same.generations, same.palettes]

/-! ### The active side (R35) -/

/-- A block's answer leaves the active side, or is an apply, which it makes only while the tracker is not LOCKED (R28, R43). -/
theorem answer_activeSide (code : Byte) (p : List Byte) (s : State) :
    (dispatch code p s).state.activeSide = s.activeSide ∨
      s.isLocked = false ∧ (dispatch code p s).state.generations.generation = s.generations.generation + 1 ∧
        (dispatch code p s).state.generations.commit = .idle := by
  have answered := dispatch_answered code p s
  generalize (dispatch code p s).state = t at answered ⊢
  cases answered with
  | now _ _ unlocked => exact .inr ⟨unlocked, rfl, rfl⟩
  | clearNow _ unlocked => exact .inr ⟨unlocked, rfl, rfl⟩
  | _ => exact .inl rfl

/-- A PACKET_END outside a line is no fault of a locked frame and moves no position (R107). -/
theorem after_packetEnd {t : Tracker} (locked : t.rasterState = .locked) (outside : t.inLine = false) :
    t.after .packetEnd = t := by
  simp [Tracker.after, locked, Tracker.faultAt, outside, Tracker.move]

/-- Any command but a hard reset's end leaves the active side, or makes an apply: at a FRAME_START, or in a command that a block
answers while the tracker, as the command found it, is not LOCKED. -/
theorem exec_activeSide {c : Instr} {s t : State} (h : exec c s = .next t) (hc : isHardReset c = false) :
    t.activeSide = s.activeSide ∨
      (t.generations.generation = s.generations.generation + 1 ∧ t.generations.commit = .idle) ∧
        (s.HoldingLegal → s.tracker.rasterState = .locked → c = .frameStart) := by
  rcases exec_tables h hc with same | ⟨frame, -, -, applied⟩ | ⟨code, p, u, found, answered, -, how⟩
  · exact .inl same.activeSide
  · exact .inr ⟨by rw [applied.generations]; exact ⟨rfl, rfl⟩, fun _ _ => frame⟩
  · rcases answer_activeSide code p u with stands | ⟨unlocked, number, commit⟩
    · exact .inl (answered.activeSide.trans (stands.trans found.activeSide))
    · rw [← answered.generations, found.generations] at number
      rw [← answered.generations] at commit
      refine .inr ⟨⟨number, commit⟩, fun holding locked => ?_⟩
      have tracker : u.tracker = s.tracker := by
        rcases how with ⟨-, row⟩ | ⟨-, held, packet, -⟩
        · exact row
        · rw [packet, trackSymbol_tracker, after_packetEnd locked (holding held).1]
      simp [State.isLocked, tracker, locked] at unlocked

/-! ### The staged side (R38) -/

/-- What the clearing of CLEAR_ALL makes of the staged side: the fill colour alone stands (R42). -/
def State.clearedSide (s : State) :
    Vector (Option ObjectFields) 64 × OutputMode × Colour × List PaletteWrite :=
  (Vector.replicate 64 none, .pass, s.generations.stagedFill, [])

/-- While armed a block's answer leaves the staged side, or is CLEAR_ALL's. -/
theorem answer_stagedSide (code : Byte) (p : List Byte) {s : State} (armed : s.generations.commit.isArmed = true) :
    (dispatch code p s).state.stagedSide = s.stagedSide ∨
      code = codeClearAll ∧ (dispatch code p s).state.stagedSide = s.clearedSide := by
  have answered := dispatch_answered code p s
  generalize (dispatch code p s).state = t at answered ⊢
  have busy : ∀ {q : Prop}, s.generations.commit.isArmed = false → q := fun idle => by simp [armed] at idle
  cases answered with
  | define _ idle => exact busy idle
  | move _ idle => exact busy idle
  | attr _ idle => exact busy idle
  | delete _ idle => exact busy idle
  | now _ idle => exact busy idle
  | mode _ idle => exact busy idle
  | discard _ idle => exact busy idle
  | palette _ idle => exact busy idle
  | clearArmed row => exact .inr ⟨row, rfl⟩
  | clearNow row => exact .inr ⟨row, rfl⟩
  | _ => exact .inl rfl

/-- A well-formed row that carries CLEAR_ALL's code is CLEAR_ALL. -/
theorem carried_clearAll {c : Instr} {how : Addressing} {seq : Byte} {p : List Byte} (hw : wellFormed c = true)
    (row : carried c = some (how, seq, codeClearAll, p)) : c = .clearAll how seq p := by
  cases c with
  | clearAll => simpa [carried] using row
  | unknownCommandCode _ _ code =>
    simp only [carried, Option.some.injEq, Prod.mk.injEq] at row
    obtain ⟨rfl, rfl, rfl, rfl⟩ := row
    simp [wellFormed, listedCodes] at hw
  | _ => cases row

theorem commandWritePalette_armed {s : State} (armed : s.generations.commit.isArmed = true) (p : List Byte) :
    commandWritePalette p s = ⟨s, .armed, writePaletteData p s.palettes.writes.length 0 0⟩ := by
  simp [commandWritePalette, armed, refuse]

theorem commandSetMode_armed {s : State} (armed : s.generations.commit.isArmed = true) (p : List Byte) :
    commandSetMode p s = ⟨s, .armed, []⟩ := by
  simp [commandSetMode, armed, refuse]

theorem commandDiscard_armed {s : State} (armed : s.generations.commit.isArmed = true) :
    commandDiscard s = ⟨s, .armed, []⟩ := by
  simp [commandDiscard, armed, refuse]

/-- The codes of the commands that edit the staged side, CLEAR_ALL apart (R38). -/
def editingCodes : List Byte :=
  [codeDefineObject, codeMoveObject, codeSetObjectAttr, codeDeleteObject, codeWritePalette, codeSetMode, codeDiscard]

/-- Every editing command of fitting length is refused with ARMED while armed. -/
theorem dispatch_armed {code : Byte} {p : List Byte} {s : State} (edits : code ∈ editingCodes)
    (fits : lengthFits code p = true) (armed : s.generations.commit.isArmed = true) :
    ∃ d, dispatch code p s = ⟨s, .armed, d⟩ := by
  simp only [editingCodes, List.mem_cons, List.not_mem_nil, or_false] at edits
  rcases edits with rfl | rfl | rfl | rfl | rfl | rfl | rfl
  · exact ⟨_, (dispatch_defineObject s fits).trans (commandDefineObject_armed armed)⟩
  · exact ⟨_, (dispatch_moveObject s fits).trans (commandMoveObject_armed armed)⟩
  · exact ⟨_, (dispatch_setObjectAttr s fits).trans (commandSetObjectAttr_armed armed)⟩
  · exact ⟨_, (dispatch_deleteObject s fits).trans (commandDeleteObject_armed armed)⟩
  · exact ⟨_, (dispatch_writePalette s fits).trans (commandWritePalette_armed armed p)⟩
  · exact ⟨_, (dispatch_setMode s fits).trans (commandSetMode_armed armed p)⟩
  · exact ⟨_, (dispatch_discard s fits).trans (commandDiscard_armed armed)⟩

end Sys2Proof.Machine

namespace Sys2Proof.GenerationsAndCommit

open Sys2Proof.Machine

/-- Settles O15: whatever changes the active side is an apply, and an apply while LOCKED is a FRAME_START's, since a packet is held
only outside a line, where its PACKET_END finds the tracker LOCKED and leaves it so. -/
theorem activeSideStandsWhileLocked : Obligations.ActiveSideStandsWhileLocked := by
  unfold Obligations.ActiveSideStandsWhileLocked
  refine ⟨fun s t c holding locked hc hf h => ?_, fun s t c hc h changed => ?_, fun s t c hc h => ?_⟩
  · exact (exec_activeSide h hc).resolve_right fun applied => hf (applied.2 holding locked)
  · exact ((exec_activeSide h hc).resolve_left changed).1
  · cases c with
    | resetRelease straps => exact Host.Outcome.next.inj h ▸ rfl
    | powerUp straps => exact Host.Outcome.next.inj h ▸ rfl
    | _ => cases hc

/-- Settles O16: an answer while armed edits nothing but by CLEAR_ALL, and each editing command meets its ARMED check first. -/
theorem stagedSideStandsWhileArmed : Obligations.StagedSideStandsWhileArmed := by
  unfold Obligations.StagedSideStandsWhileArmed
  refine ⟨fun s t c hw armed hc h => ?_, fun s i seq code p row he armed fits edits => ?_⟩
  · rcases exec_tables h hc with same | ⟨frame, -, -, applied⟩ | ⟨code, p, u, found, answered, -, how⟩
    · exact .inl same.stagedSide
    · exact .inr (.inl ⟨frame, by rw [applied.generations]; rfl, applied.stagedSide⟩)
    · rcases answer_stagedSide code p (s := u) (found.generations ▸ armed) with stands | ⟨rfl, cleared⟩
      · exact .inl (answered.stagedSide.trans (stands.trans found.stagedSide))
      · refine .inr (.inr ⟨?_, ?_⟩)
        · rcases how with ⟨⟨how, seq, row⟩, -⟩ | ⟨row, -, -, dest, seq, good⟩
          · exact .inl ⟨how, seq, p, carried_clearAll hw row⟩
          · exact .inr ⟨row, dest, seq, p, good⟩
        · rw [answered.stagedSide, cleared, State.clearedSide, found.generations]
  · obtain ⟨d, refused⟩ := dispatch_armed (s := s.opened seq) edits fits armed
    exact ⟨d, exec_answered row he refused⟩

end Sys2Proof.GenerationsAndCommit
end

section
/-! The commands of the generation controller, check by check (R25 to R29, R39 to R43), and how an accepted or a broadcast command
comes back from its block. -/

namespace Sys2Proof.Machine

/-! ### What a command leaves behind -/

/-- An accepted command whose block changes the tables alone: the new tables beside the acceptance. -/
theorem exec_newTables {s u : State} {i : Instr} {seq code : Byte} {p d : List Byte} {st : Status}
    (hc : carried i = some (.unicast, seq, code, p)) (he : s.Expects seq) (hr : dispatch code p (s.opened seq) = ⟨u, st, d⟩)
    (hu : u = { s.opened seq with
      objects := u.objects, generations := u.generations, palettes := u.palettes, images := u.images }) :
    exec i s = .next { s.accepted ⟨seq, code, st, d⟩ with
      objects := u.objects, generations := u.generations, palettes := u.palettes, images := u.images } := by
  rw [hu] at hr
  rw [exec_accepted hc he hr rfl rfl rfl]
  rfl

/-- A broadcast that a unit may carry out and that its block accepts is carried out and answered by nothing (R44, R143). -/
theorem exec_broadcast {s t : State} {i : Instr} {seq code : Byte} {p d : List Byte}
    (hc : carried i = some (.broadcast, seq, code, p)) (reach : s.takesCommands = true) (may : broadcastable code p = true)
    (hr : dispatch code p s = ⟨t, .ok, d⟩) : exec i s = .next t := by
  rw [exec_host hc]
  simp [takeCommand, reach, handOver, takeBroadcast, may, hr]

/-- An accepted command that sets the commit state. -/
theorem exec_setCommit {s : State} {i : Instr} {seq code : Byte} {p d : List Byte} {c : CommitState}
    (hc : carried i = some (.unicast, seq, code, p)) (he : s.Expects seq)
    (hr : dispatch code p (s.opened seq) = ⟨setCommit c (s.opened seq), .ok, d⟩) :
    exec i s = .next { s.accepted ⟨seq, code, .ok, d⟩ with generations := { s.generations with commit := c } } :=
  exec_newTables hc he hr rfl

/-! ### Fields of two bytes (R162) -/

/-- A number of 16 bits reads back from the two bytes that carry it. -/
theorem be16_value {n : Nat} (h : n < 65536) : (u8 (n / 256)).toNat * 256 + (u8 n).toNat = n := by
  simp only [u8, BitVec.toNat_ofNat]
  omega

theorem commitTarget_be16 (m : Byte) (target : Word16) : commitTarget (m :: be16 target.toNat) = target := by
  have value : u16At (m :: be16 target.toNat) 1 = target.toNat := be16_value target.isLt
  rw [commitTarget, value, BitVec.ofNat_toNat, BitVec.setWidth_eq]

theorem colourAt_be16 (m : Byte) {c : Colour} (h0 : c.c0 < 65536) (h1 : c.c1 < 65536) (h2 : c.c2 < 65536) :
    colourAt (m :: (be16 c.c0 ++ be16 c.c1 ++ be16 c.c2)) 1 = c :=
  congr (congrArg₂ Colour.mk (be16_value h0) (be16_value h1)) (be16_value h2)

/-! ### COMMIT (R25 to R28) -/

section
variable {s : State}

theorem commandCommitNext_ok (idle : s.generations.commit.isArmed = false) :
    commandCommitNext s = commitAnswer s (setCommit .armedNext s) .ok := by
  simp [commandCommitNext, idle]

theorem commandCommitNext_armed (armed : s.generations.commit.isArmed = true) :
    commandCommitNext s = commitAnswer s s .armed := by
  simp [commandCommitNext, armed]

theorem commandCommitAt_ok {target : Word16} (idle : s.generations.commit.isArmed = false)
    (near : 1 ≤ (target - s.tracker.frameCounter).toNat) (far : (target - s.tracker.frameCounter).toNat ≤ 1024) :
    commandCommitAt target s = commitAnswer s (setCommit (.armedAt target) s) .ok := by
  have inside : ¬(horizonOf s target < 1 ∨ 1024 < horizonOf s target) := by unfold horizonOf; omega
  simp only [commandCommitAt, idle, Bool.false_eq_true, if_false, if_neg inside]

theorem commandCommitAt_armed (armed : s.generations.commit.isArmed = true) (target : Word16) :
    commandCommitAt target s = commitAnswer s s .armed := by
  simp [commandCommitAt, armed]

theorem commandCommitAt_range {target : Word16} (idle : s.generations.commit.isArmed = false)
    (outside : (target - s.tracker.frameCounter).toNat = 0 ∨ 1024 < (target - s.tracker.frameCounter).toNat) :
    commandCommitAt target s = commitAnswer s s .range := by
  have outside' : horizonOf s target < 1 ∨ 1024 < horizonOf s target := by
    unfold horizonOf; omega
  simp only [commandCommitAt, idle, Bool.false_eq_true, if_false, if_pos outside']

theorem isLocked_iff : s.isLocked = true ↔ s.tracker.rasterState = .locked := by simp [State.isLocked]

theorem isLocked_false (h : s.tracker.rasterState ≠ .locked) : s.isLocked = false := by simpa [State.isLocked] using h

theorem commandCommitNow_ok (idle : s.generations.commit.isArmed = false) (unlocked : s.isLocked = false) :
    commandCommitNow s = commitAnswer s (applyGeneration s) .ok := by
  simp [commandCommitNow, idle, unlocked]

theorem commandCommitNow_armed (armed : s.generations.commit.isArmed = true) :
    commandCommitNow s = commitAnswer s s .armed := by
  simp [commandCommitNow, armed]

theorem commandCommitNow_locked (idle : s.generations.commit.isArmed = false) (locked : s.isLocked = true) :
    commandCommitNow s = commitAnswer s s .locked := by
  simp [commandCommitNow, idle, locked]

theorem commandCommitOther_eq :
    commandCommitOther s = commitAnswer s s (if s.generations.commit = .idle then .range else .armed) := by
  cases h : s.generations.commit <;> simp [commandCommitOther, h, CommitState.isArmed]

/-! A COMMIT of fitting length goes by its mode byte (R25). -/

theorem dispatch_commitNext {rest : List Byte} (h : rest.length = 2) :
    dispatch codeCommit (0 :: rest) s = commandCommitNext s :=
  dispatch_commit s (beq_iff_eq.mpr (congrArg (· + 1) h))

theorem dispatch_commitAt {rest : List Byte} (h : rest.length = 2) :
    dispatch codeCommit (1 :: rest) s = commandCommitAt (commitTarget (1 :: rest)) s :=
  dispatch_commit s (beq_iff_eq.mpr (congrArg (· + 1) h))

theorem dispatch_commitNow {rest : List Byte} (h : rest.length = 2) :
    dispatch codeCommit (2 :: rest) s = commandCommitNow s :=
  dispatch_commit s (beq_iff_eq.mpr (congrArg (· + 1) h))

theorem dispatch_commitOther {m a b : Byte} (h : 2 < m.toNat) :
    dispatch codeCommit [m, a, b] s = commandCommitOther s := by
  rw [dispatch_commit s rfl]
  obtain ⟨k, hk⟩ := Nat.exists_eq_add_of_lt h
  have mode : byteAt [m, a, b] 0 = k + 3 := hk.trans (by omega)
  simp only [commandCommit, mode]

/-- The two COMMITs that arm may come as broadcasts (R44). -/
theorem broadcastable_commit {m : Byte} {rest : List Byte} (h : rest.length = 2) (hm : m.toNat < 2) :
    broadcastable codeCommit (m :: rest) = true := by
  have fits : lengthFits codeCommit (m :: rest) = true := beq_iff_eq.mpr (congrArg (· + 1) h)
  have mode : byteAt (m :: rest) 0 < 2 := hm
  simp [broadcastable, fits, mode]

/-- A refused COMMIT: the commit state is answered as it stands, and nothing changes (R25). -/
theorem exec_commitRefused {i : Instr} {seq : Byte} {p : List Byte} {st : Status}
    (hc : carried i = some (.unicast, seq, codeCommit, p)) (he : s.Expects seq)
    (hr : dispatch codeCommit p (s.opened seq) = commitAnswer (s.opened seq) (s.opened seq) st) :
    exec i s = .next (s.accepted ⟨seq, codeCommit, st,
      commitReply s.generations.commit s.tracker.frameCounter s.generations.generation s.generations.stagedDirty⟩) :=
  exec_answered hc he hr

/-! ### CANCEL_COMMIT (R29) -/

/-- What CANCEL_COMMIT answers: the commit state and target before it, and the frame counter. -/
def cancelReply (s : State) : List Byte :=
  [s.generations.commit.code] ++ be16 s.generations.commit.targetValue ++ be16 s.tracker.frameCounter.toNat

theorem commandCancelCommit_ok (armed : s.generations.commit.isArmed = true) :
    commandCancelCommit s = ⟨setCommit .idle s, .ok, cancelReply s⟩ := by
  simp [commandCancelCommit, armed, cancelReply]

theorem commandCancelCommit_notArmed (idle : s.generations.commit.isArmed = false) :
    commandCancelCommit s = ⟨s, .notArmed, cancelReply s⟩ := by
  simp [commandCancelCommit, idle, refuse, cancelReply]

/-! ### SET_MODE and DISCARD (R39 to R41) -/

/-- The mode and fill colour staged, and staged-dirty set (R39). -/
def stageMode (m : OutputMode) (c : Colour) (s : State) : State :=
  { s with generations := { s.generations with stagedMode := m, stagedFill := c, stagedDirty := true } }

theorem outputModeOf_code (m : OutputMode) : outputModeOf m.code.toNat = some m := by cases m <;> rfl

theorem outputModeOf_none {n : Nat} (h : 2 < n) : outputModeOf n = none := by
  unfold outputModeOf
  rw [if_neg (by omega), if_neg (by omega), if_neg (by omega)]

theorem commandSetMode_ok {p : List Byte} {m : OutputMode} (idle : s.generations.commit.isArmed = false)
    (mode : outputModeOf (byteAt p 0) = some m) (fill : (colourAt p 1).InRange) :
    commandSetMode p s = ⟨stageMode m (colourAt p 1) s, .ok, [m.code] ++ (colourAt p 1).bytes⟩ := by
  simp [commandSetMode, idle, mode, (colourInRange_iff _).mpr fill, stageMode]

theorem commandSetMode_range {p : List Byte} (idle : s.generations.commit.isArmed = false)
    (outside : outputModeOf (byteAt p 0) = none ∨ ¬(colourAt p 1).InRange) : commandSetMode p s = ⟨s, .range, []⟩ := by
  cases mode : outputModeOf (byteAt p 0) with
  | none => simp [commandSetMode, idle, mode, refuse]
  | some m =>
    have fill : ¬colourInRange (colourAt p 1) = true :=
      (colourInRange_iff _).not.mpr (outside.resolve_left (by simp [mode]))
    simp [commandSetMode, idle, mode, fill, refuse]

theorem commandDiscard_ok (idle : s.generations.commit.isArmed = false) :
    commandDiscard s = ⟨discardStagedSide s, .ok,
      be16 s.generations.generation.toNat ++ [u8 (s.images.handlesWith ImageEntry.isRetiring)]⟩ := by
  simp only [commandDiscard, idle, Bool.false_eq_true, if_false, ImageStore.retiringCount, countP_directory]

end

end Sys2Proof.Machine

namespace Sys2Proof.GenerationsAndCommit

open Sys2Proof.Machine

/-- Settles O33: in IDLE with a horizon in range both modes pass their checks, and a broadcast runs the same block. -/
theorem commitArmsInIdle : Obligations.CommitArmsInIdle := by
  unfold Obligations.CommitArmsInIdle
  intro s seq hi armed ack
  refine ⟨fun rest hl => ⟨fun he => ?_, fun reach => ?_⟩, fun target near far => ⟨fun he => ?_, fun reach => ?_⟩⟩
  · exact exec_setCommit rfl he ((dispatch_commitNext hl).trans (commandCommitNext_ok (armed_false hi)))
  · exact exec_broadcast rfl reach (broadcastable_commit hl (by decide))
      ((dispatch_commitNext hl).trans (commandCommitNext_ok (armed_false hi)))
  · have ok := commandCommitAt_ok (s := s.opened seq) (armed_false hi) near far
    exact exec_setCommit rfl he ((dispatch_commitAt rfl).trans (by rw [commitTarget_be16]; exact ok))
  · have ok := commandCommitAt_ok (armed_false hi) near far
    exact exec_broadcast rfl reach (broadcastable_commit rfl (by decide))
      ((dispatch_commitAt rfl).trans (by rw [commitTarget_be16]; exact ok))

/-- Settles O34, refusal by refusal. -/
theorem commitRefusalsChangeNothing : Obligations.CommitRefusalsChangeNothing := by
  unfold Obligations.CommitRefusalsChangeNothing
  intro s seq he refusal
  refine ⟨fun rest hl ha => ⟨?_, ?_, ?_⟩, fun m a b hm => ?_, fun target hi outside => ?_, fun rest hl hi locked => ?_⟩
  · exact exec_commitRefused rfl he ((dispatch_commitNext hl).trans (commandCommitNext_armed (armed_true ha)))
  · exact exec_commitRefused rfl he ((dispatch_commitAt hl).trans (commandCommitAt_armed (s := s.opened seq) (armed_true ha) _))
  · exact exec_commitRefused rfl he ((dispatch_commitNow hl).trans (commandCommitNow_armed (armed_true ha)))
  · exact exec_commitRefused rfl he ((dispatch_commitOther hm).trans commandCommitOther_eq)
  · have refused := commandCommitAt_range (s := s.opened seq) (armed_false hi) outside
    exact exec_commitRefused rfl he ((dispatch_commitAt rfl).trans (by rw [commitTarget_be16]; exact refused))
  · exact exec_commitRefused rfl he
      ((dispatch_commitNow hl).trans (commandCommitNow_locked (armed_false hi) (isLocked_iff.mpr locked)))

/-- Settles O36, answer by answer. -/
theorem cancelCommitWithdrawsTheCommit : Obligations.CancelCommitWithdrawsTheCommit := by
  unfold Obligations.CancelCommitWithdrawsTheCommit
  intro s seq he ack
  refine ⟨fun ha => ?_, fun hi => ?_, fun p hp => ?_⟩
  · exact exec_setCommit rfl he ((dispatch_cancelCommit _ rfl).trans (commandCancelCommit_ok (armed_true ha)))
  · exact exec_answered rfl he ((dispatch_cancelCommit _ rfl).trans (commandCancelCommit_notArmed (armed_false hi)))
  · have misfit : lengthFits codeCancelCommit p = false := beq_eq_false_iff_ne.mpr fun h => hp (List.length_eq_zero_iff.mp h)
    exact exec_answered rfl he (dispatch_length (by decide) misfit _)

/-- Settles O37: the payload's fields read back as the mode and the colour that it carries. -/
theorem setModeStagesModeAndFill : Obligations.SetModeStagesModeAndFill := by
  unfold Obligations.SetModeStagesModeAndFill
  intro s seq m c he h0 h1 h2 p
  have run := dispatch_setMode (s.opened seq) (p := p) rfl
  have fill : colourAt p 1 = c := colourAt_be16 m h0 h1 h2
  refine ⟨fun mode hi range hm => ?_, fun ha => ?_, fun hi outside => ?_⟩
  · subst hm
    have ok := commandSetMode_ok (s := s.opened seq) (p := p) (armed_false hi) (outputModeOf_code mode) (fill.symm ▸ range)
    rw [fill] at ok
    exact exec_newTables rfl he (run.trans ok) rfl
  · exact exec_answered rfl he (run.trans (commandSetMode_armed (s := s.opened seq) (armed_true ha) p))
  · refine exec_answered rfl he (run.trans (commandSetMode_range (armed_false hi) ?_))
    exact outside.imp outputModeOf_none fun h => fill.symm ▸ h

/-- Settles O38: each entry of the two tables copied at its place. -/
theorem discardCopiesTheActiveSide : Obligations.DiscardCopiesTheActiveSide := by
  unfold Obligations.DiscardCopiesTheActiveSide
  intro s seq he
  have run := dispatch_discard (s.opened seq) (p := []) rfl
  refine ⟨fun hi => ?_, fun ha => exec_answered rfl he (run.trans (commandDiscard_armed (armed_true ha)))⟩
  exact ⟨_, exec_newTables rfl he (run.trans (commandDiscard_ok (armed_false hi))) rfl, stagedAt_discardStaged s.objects, rfl,
    fun h _ => entry_discardCounts s.images h, rfl⟩

end Sys2Proof.GenerationsAndCommit
end

section
/-! The apply (R30 to R33): made at once by COMMIT NOW and CLEAR_ALL, or at the FRAME_START that is due, and where its COMMIT event
stands. -/

namespace Sys2Proof.Machine

/-! ### The tables after an apply, and after CLEAR_ALL's clearing -/

/-- The law of the apply speaks of the tables alone. -/
theorem SameTables.applied {s t : State} (same : SameTables (applyTables s) t)
    (once : s.palettes.writes.Pairwise fun a b => ¬(a.palette = b.palette ∧ a.index = b.index)) : s.Applied t := by
  have law := applyTables_applied s once
  constructor
  case staged => exact same.objects ▸ law.staged
  case active => exact same.objects ▸ law.active
  case generations => exact same.generations ▸ law.generations
  case writes => exact same.palettes ▸ law.writes
  case palettes => exact same.palettes ▸ law.palettes
  case memory => exact same.images ▸ law.memory
  case entries => exact same.images ▸ law.entries
  case pages => exact same.images ▸ law.pages

/-- The law of the clearing speaks of the tables alone, and leaves the commit state open. -/
theorem SameTables.cleared {s t : State} {c : CommitState} (same : SameTables (setCommit c (clearStagedSide s)) t) :
    s.Cleared t := by
  have law := clearStagedSide_cleared s
  constructor
  case staged => exact same.objects ▸ law.staged
  case active => exact same.objects ▸ law.active
  case generations => rw [same.generations]; rfl
  case palettes => exact same.palettes ▸ law.palettes
  case memory => exact same.images ▸ law.memory
  case entries => exact same.images ▸ law.entries
  case pages => exact same.images ▸ law.pages

/-! ### The COMMIT event of an apply made at once (R33, R136, R150 to R153) -/

/-- The COMMIT event `e` of an apply made at once stands behind the acknowledgement: left out when the mask leaves it out, built
when nothing waits and two slots are free, and pending when they are not. -/
def State.EventBehind (s : State) (answer : ReportSlot) (e : CommitEvent) (r : ReportUnit) : Prop :=
  (s.session.mask.commit = false → r.queue = s.reports.queue ++ [answer] ∧ r.events = s.reports.events) ∧
  (s.session.mask.commit = true → s.reports.events = PendingEvents.empty → s.reports.queue.length ≤ 5 →
    r.queue = s.reports.queue ++ [answer, .filled (eventReport s.unitAddress (.commit e))] ∧
    r.events = PendingEvents.empty) ∧
  (s.session.mask.commit = true → 6 ≤ s.reports.queue.length →
    r.queue = s.reports.queue ++ [answer] ∧ r.events = { s.reports.events with commit := some e })

theorem opened_freeSlots (s : State) (seq : Byte) : (s.opened seq).reports.freeSlots = 8 - (s.reports.queue.length + 1) := by
  simp [State.opened, consume, reserveSlot, ReportUnit.freeSlots, Config.reportSlots]

/-- An event raised with the acknowledgement's slot reserved stands behind that slot, also once it is filled. -/
theorem eventBehind_of_raise {s : State} {seq : Byte} {answer : ReportSlot} {e : CommitEvent} {r : ReportUnit}
    {tail : List ReportSlot}
    (raised : ((s.opened seq).reports.raise s.unitAddress s.session.mask (.commit e)).queue =
      s.reports.queue ++ .reserved :: tail)
    (queue : r.queue = s.reports.queue ++ answer :: tail)
    (events : r.events = ((s.opened seq).reports.raise s.unitAddress s.session.mask (.commit e)).events) :
    s.EventBehind answer e r := by
  have slots := opened_freeSlots s seq
  have behind : ∀ {new}, (s.opened seq).reports.queue ++ new = s.reports.queue ++ .reserved :: tail → tail = new := by
    intro new h
    simpa [State.opened, consume, reserveSlot, eq_comm] using h
  refine ⟨fun masked => ?_, fun enabled nothing short => ?_, fun enabled full => ?_⟩
  · rw [raise_masked (r := (s.opened seq).reports) (e := .commit e) masked] at raised events
    obtain rfl := behind (new := []) (by rw [List.append_nil]; exact raised)
    exact ⟨queue, events⟩
  · rw [raise_built (r := (s.opened seq).reports) (e := .commit e) enabled nothing (by omega)] at raised events
    obtain rfl := behind raised
    exact ⟨queue, events.trans nothing⟩
  · rw [raise_waits (r := (s.opened seq).reports) (e := .commit e) enabled (by omega)] at raised events
    obtain rfl := behind (new := []) (by rw [List.append_nil]; exact raised)
    exact ⟨queue, events⟩

/-- A unicast command whose block applies at once (R28, R43). -/
theorem exec_appliesAtOnce {s u : State} {i : Instr} {seq code : Byte} {p d : List Byte}
    (hc : carried i = some (.unicast, seq, code, p)) (he : s.Expects seq)
    (hr : dispatch code p (s.opened seq) = ⟨applyGeneration u, .ok, d⟩)
    (hu : u = { s.opened seq with
      objects := u.objects, generations := u.generations, images := u.images, palettes := u.palettes }) :
    ∃ t, exec i s = .next t ∧ SameTables (applyTables u) t ∧
      t = { s.accepted ⟨seq, code, .ok, d⟩ with
        objects := t.objects
        generations := t.generations
        palettes := t.palettes
        images := t.images
        reports := { (s.accepted ⟨seq, code, .ok, d⟩).reports with queue := t.reports.queue, events := t.reports.events } } ∧
      s.EventBehind (s.answer ⟨seq, code, .ok, d⟩ false) ⟨u.generations.generation + 1, s.tracker.frameCounter⟩ t.reports := by
  obtain ⟨t, run, tables, frame, _, rfl, events, tail, raised, queue⟩ := exec_apply hc he hr hu
  exact ⟨t, run, tables, frame, eventBehind_of_raise raised queue events⟩

/-! ### CLEAR_ALL (R42, R43) -/

/-- The images CLEAR_ALL makes RETIRING and FREE, as it answers them. -/
def clearCounted (s : State) : List Byte :=
  [u8 (s.images.handlesWith ImageEntry.retiredByClear), u8 (s.images.handlesWith ImageEntry.freedByClear)]

theorem commandClearAll_locked {s : State} (locked : s.isLocked = true) :
    commandClearAll s = ⟨setCommit .armedNext (clearStagedSide s), .ok,
      [1] ++ be16 s.generations.generation.toNat ++ clearCounted s⟩ := by
  simp only [commandClearAll, locked, if_true, countP_directory]
  rfl

theorem commandClearAll_unlocked {s : State} (unlocked : s.isLocked = false) :
    commandClearAll s = ⟨applyGeneration (clearStagedSide s), .ok,
      [0] ++ be16 (s.generations.generation + 1).toNat ++ clearCounted s⟩ := by
  simp only [commandClearAll, unlocked, Bool.false_eq_true, if_false, countP_directory]
  rfl

theorem dispatch_clearAll_locked {s : State} (locked : s.isLocked = true) :
    dispatch codeClearAll [] s = ⟨setCommit .armedNext (clearStagedSide s), .ok,
      [1] ++ be16 s.generations.generation.toNat ++ clearCounted s⟩ :=
  (dispatch_clearAll s rfl).trans (commandClearAll_locked locked)

theorem dispatch_clearAll_unlocked {s : State} (unlocked : s.isLocked = false) :
    dispatch codeClearAll [] s = ⟨applyGeneration (clearStagedSide s), .ok,
      [0] ++ be16 (s.generations.generation + 1).toNat ++ clearCounted s⟩ :=
  (dispatch_clearAll s rfl).trans (commandClearAll_unlocked unlocked)

/-! ### The apply at a FRAME_START (R30, R36) -/

theorem dueAt_iff (s : State) : s.generations.commit.dueAt (s.tracker.frameCounter + 1) = true ↔ s.ApplyDue := by
  unfold State.ApplyDue
  cases s.generations.commit <;> simp [CommitState.dueAt]

theorem applyIfDue_due {s : State} (due : s.ApplyDue) :
    applyIfDue (trackFrameStart s) = applyGeneration (trackFrameStart s) := by
  rw [applyIfDue, trackFrameStart_counter, trackFrameStart_generations, if_pos ((dueAt_iff s).mpr due)]

theorem applyIfDue_notDue {s : State} (h : ¬s.ApplyDue) : applyIfDue (trackFrameStart s) = trackFrameStart s := by
  rw [applyIfDue, trackFrameStart_counter, trackFrameStart_generations, if_neg ((dueAt_iff s).not.mpr h)]

/-- The tables after a FRAME_START are those the generation controller leaves. -/
theorem takeFrameStart_tables (s : State) :
    SameTables (applyIfDue (trackFrameStart s)) (outputSlot (takeFrameStart s)) := by
  constructor <;> simp [takeFrameStart]

theorem trackFrameStart_tables (s : State) : SameTables s (trackFrameStart s) := by constructor <;> simp

/-! What a FRAME_START leaves of the relay queue: an event raised does not touch it. -/

section
variable (s : State)

@[simp] theorem raise_reports_relay (e : Event) : (raise e s).reports.relay = s.reports.relay := by simp [raise]

@[simp] theorem raiseRaster_reports_relay : (raiseRaster s).reports.relay = s.reports.relay := raise_reports_relay s _

@[simp] theorem applyGeneration_reports_relay : (applyGeneration s).reports.relay = s.reports.relay :=
  raise_reports_relay (applyTables s) _

@[simp] theorem applyIfDue_reports_relay : (applyIfDue s).reports.relay = s.reports.relay := by
  unfold applyIfDue
  split <;> simp

@[simp] theorem takeFault_reports_relay (k : FaultKind) : (takeFault k s).reports.relay = s.reports.relay := by
  unfold takeFault stopCompositing latchSummary
  dsimp only
  split
  · split <;> simp
  · rfl

@[simp] theorem trackFrameStart_reports_relay : (trackFrameStart s).reports.relay = s.reports.relay := by
  unfold trackFrameStart
  split
  · simp
  · rfl
  · simp
  · split <;> simp

@[simp] theorem filterRaster_reports_relay (x : FwdSymbol) : (filterRaster x s).reports.relay = s.reports.relay := by
  have counted : ∀ u : State, (countTruncated u).reports.relay = u.reports.relay := fun u => raise_reports_relay _ _
  unfold filterRaster endOpenPacket
  split <;> simp [counted]

end

/-- What an event makes of the report unit depends on that unit, the address, the mask, and what the arbiter looks at. -/
theorem raise_reports_congr {s u : State} (reports : u.reports = s.reports) (address : u.unitAddress = s.unitAddress)
    (session : u.session = s.session) (reset : u.resetAsserted = s.resetAsserted) (room : u.upstreamRoom = s.upstreamRoom)
    (e : Event) : (raise e u).reports = (raise e s).reports := by
  obtain ⟨⟩ := u
  dsimp only at reports address session reset room
  subst reports address session reset room
  rfl

/-- In ACQUIRING, and in LOCKED outside a frame, a FRAME_START raises no RASTER event (R113). -/
theorem trackFrameStart_reports {s : State}
    (plain : s.tracker.rasterState = .acquiring ∨ s.tracker.rasterState = .locked ∧ s.tracker.inFrame = false) :
    (trackFrameStart s).reports = s.reports := by
  unfold trackFrameStart
  rcases plain with acquiring | ⟨locked, outside⟩
  · simp only [acquiring]
  · simp only [locked, Tracker.faultAt, outside, Bool.false_eq_true, if_false]

/-- With no packet open a FRAME_START raises no LINK event. -/
theorem takeFrameStart_reports {s : State} (closed : s.filter.reception = .none) :
    (outputSlot (takeFrameStart s)).reports = (applyIfDue (trackFrameStart s)).reports := by
  simp [takeFrameStart, filterRaster, endOpenPacket, closed]

/-- The COMMIT event of an apply that is due at a FRAME_START with no other event. -/
theorem applyIfDue_reports {s : State} (due : s.ApplyDue) (quiet : (trackFrameStart s).reports = s.reports) :
    (applyIfDue (trackFrameStart s)).reports =
      s.raised [.commit ⟨s.generations.generation + 1, s.tracker.frameCounter + 1⟩] := by
  have event : applyGeneration (trackFrameStart s) = raise (.commit ⟨s.generations.generation + 1, s.tracker.frameCounter + 1⟩)
      (applyTables (trackFrameStart s)) := by
    rw [applyGeneration, applyTables_tracker, trackFrameStart_counter, applyTables, trackFrameStart_generations]
  rw [applyIfDue_due due, event]
  exact raise_reports_congr quiet (by simp) (by simp) (by simp) (by simp) _

end Sys2Proof.Machine

namespace Sys2Proof.GenerationsAndCommit

open Sys2Proof.Machine

/-- Settles O35: the checks of R28 pass, and the block's answer is the apply. -/
theorem commitNowAppliesAtOnce : Obligations.CommitNowAppliesAtOnce := by
  unfold Obligations.CommitNowAppliesAtOnce
  intro s seq rest he hl hi unlocked legal
  have ok := commandCommitNow_ok (s := s.opened seq) (armed_false hi) (isLocked_false unlocked)
  obtain ⟨t, run, tables, frame, event⟩ := exec_appliesAtOnce (i := .commitNow .unicast seq rest) rfl he
    ((dispatch_commitNow hl).trans ok) rfl
  have start : SameTables s (s.opened seq) := ⟨rfl, rfl, rfl, rfl⟩
  exact ⟨t, run, (start.apply.trans tables).applied legal.once, frame, event⟩

/-- Settles O39: the clearing first, then the commit state set or the apply made; the clearing leaves no pending write for the apply to
take in. -/
theorem clearAllClearsAndArmsOrApplies : Obligations.ClearAllClearsAndArmsOrApplies := by
  unfold Obligations.ClearAllClearsAndArmsOrApplies
  intro s seq counts a applied
  refine ⟨fun locked => ?_, fun unlocked => ?_⟩
  · have locked' := isLocked_iff.mpr locked
    refine ⟨fun he => ?_, fun reach => ?_⟩
    · exact ⟨_, exec_newTables rfl he (dispatch_clearAll_locked (s := s.opened seq) locked') rfl,
        SameTables.cleared (c := .armedNext) ⟨rfl, rfl, rfl, rfl⟩, rfl, rfl⟩
    · exact ⟨_, exec_broadcast rfl reach rfl (dispatch_clearAll_locked locked'), SameTables.cleared (SameTables.refl _),
        rfl, rfl⟩
  · have unlocked' := isLocked_false unlocked
    refine ⟨fun he => ?_, fun reach => ?_⟩
    · obtain ⟨t, run, tables, frame, event⟩ := exec_appliesAtOnce (i := .clearAll .unicast seq []) rfl he
        (dispatch_clearAll_unlocked (s := s.opened seq) unlocked') rfl
      have start : SameTables (clearStagedSide s) (clearStagedSide (s.opened seq)) := ⟨rfl, rfl, rfl, rfl⟩
      exact ⟨t, clearStagedSide s, run, clearStagedSide_cleared s, (start.apply.trans tables).applied .nil, frame, event⟩
    · exact ⟨_, clearStagedSide s, exec_broadcast rfl reach rfl (dispatch_clearAll_unlocked unlocked'),
        clearStagedSide_cleared s,
        (sameTables_applyGeneration _).applied .nil, rfl⟩

/-- Settles O40: the tracker hands the counter after the increment to the generation controller, and the blocks behind it touch no
table. -/
theorem frameStartAppliesWhenDue : Obligations.FrameStartAppliesWhenDue := by
  unfold Obligations.FrameStartAppliesWhenDue
  intro s receiving legal due
  have run : exec .frameStart s = .next (outputSlot (takeFrameStart s)) :=
    congrArg Host.Outcome.next (onSymbol_receiving s takeFrameStart receiving)
  have tracked := trackFrameStart_tables s
  have taken := takeFrameStart_tables s
  refine ⟨_, run, fun hd => ?_, fun hd => ?_, by simp [takeFrameStart], by simp [takeFrameStart], by simp [takeFrameStart],
    fun closed plain => ⟨fun hd => ?_, fun hd => ?_⟩⟩
  · rw [applyIfDue_due hd] at taken
    exact (tracked.apply.trans ((sameTables_applyGeneration _).trans taken)).applied legal.once
  · rw [applyIfDue_notDue hd] at taken
    have same := tracked.trans taken
    exact ⟨same.objects, same.generations, same.palettes, same.images⟩
  · exact (takeFrameStart_reports closed).trans (applyIfDue_reports hd (trackFrameStart_reports plain))
  · rw [takeFrameStart_reports closed, applyIfDue_notDue hd, trackFrameStart_reports plain]

end Sys2Proof.GenerationsAndCommit
end

section
/-! The laws of the compositing-active flag and of the candidate list (R45 to R47, R51, R56) behind each symbol, a host command taken
and a link down. -/

namespace Sys2Proof.Machine

section
variable {s t : State}

/-! ### When the laws stand -/

/-- A clear flag and an empty list obey the laws whatever the tracker holds. -/
theorem compositorLegal_of_clear (flag : s.compositor.compositing = false) (empty : s.compositor.candidates = []) :
    s.CompositorLegal where
  flag set := by simp [flag] at set
  clear _ := empty
  between _ := empty
  count := by simp [empty]
  budget := by simp [empty]

/-- The laws look at the compositor, three items of the tracker and, while it is LOCKED, the active mode. -/
theorem compositorLegal_congr (h : s.CompositorLegal) (compositor : t.compositor = s.compositor)
    (state : t.tracker.rasterState = s.tracker.rasterState) (frame : t.tracker.inFrame = s.tracker.inFrame)
    (line : t.tracker.inLine = s.tracker.inLine)
    (mode : t.generations.activeMode = s.generations.activeMode ∨ s.tracker.rasterState ≠ .locked) : t.CompositorLegal where
  flag set := by
    rw [compositor] at set
    obtain ⟨locked, composes, inside⟩ := h.flag set
    rw [state, frame, mode.resolve_right (not_not_intro locked)]
    exact ⟨locked, composes, inside⟩
  clear := by rw [compositor]; exact h.clear
  between := by rw [compositor, line]; exact h.between
  count := by rw [compositor]; exact h.count
  budget := by rw [compositor]; exact h.budget

/-- The laws behind an operation that leaves the compositor, the tracker and the generation controller alone. -/
theorem compositorLegal_frame (h : s.CompositorLegal) (compositor : t.compositor = s.compositor)
    (tracker : t.tracker = s.tracker) (generations : t.generations = s.generations) : t.CompositorLegal :=
  compositorLegal_congr h compositor (by rw [tracker]) (by rw [tracker]) (by rw [tracker]) (.inl (by rw [generations]))

theorem outputSlot_compositorLegal (h : s.CompositorLegal) : (outputSlot s).CompositorLegal :=
  compositorLegal_frame h (by simp) (by simp) (by simp)

/-- A symbol taken keeps the laws when its event does, whether or not symbols arrive at all. -/
theorem onSymbol_compositorLegal {f : State → State} (h : s.CompositorLegal) (hf : (f s).CompositorLegal) :
    (onSymbol f s).CompositorLegal := by
  cases hr : s.receiving with
  | true => rw [onSymbol_receiving _ _ hr]; exact outputSlot_compositorLegal hf
  | false => rwa [onSymbol_deaf _ _ hr]

/-! ### The parts of the compositor's events -/

/-- Compositing stopped leaves the flag clear and the list empty (R47, R66). -/
theorem stopCompositing_clear (h : s.compositor.compositing = false → s.compositor.candidates = []) :
    (stopCompositing s).compositor.compositing = false ∧ (stopCompositing s).compositor.candidates = [] := by
  cases set : s.compositor.compositing with
  | true => simp [stopCompositing, set, latchSummary_compositor]
  | false => simp [stopCompositing, set, h set]

/-- So does the end of a composited frame (R65). -/
theorem endCompositedFrame_clear (h : s.compositor.compositing = false → s.compositor.candidates = []) :
    (endCompositedFrame s).compositor.compositing = false ∧ (endCompositedFrame s).compositor.candidates = [] := by
  cases set : s.compositor.compositing with
  | true => simp [endCompositedFrame, set, latchSummary_compositor]
  | false => simp [endCompositedFrame, set, h set]

/-- No candidate outlives the tracker's part of a FRAME_START: inside a frame it is a fault, and outside one the flag is clear. -/
theorem trackFrameStart_candidates (h : s.CompositorLegal) : (trackFrameStart s).compositor.candidates = [] := by
  rw [trackFrameStart_compositor]
  split
  · rfl
  · next whole =>
    refine h.clear (Bool.eq_false_iff.mpr fun set => whole ?_)
    obtain ⟨locked, -, inside⟩ := h.flag set
    exact ⟨locked, inside, set⟩

/-- A FRAME_START begins a frame in every raster state (R100, R102). -/
theorem afterFrameStart_inFrame (r : Tracker) : r.afterFrameStart.inFrame = true := by
  unfold Tracker.afterFrameStart
  cases r.rasterState with
  | noSignal => rfl
  | acquiring => dsimp only; split <;> rfl
  | disrupted => rfl
  | locked => dsimp only; split <;> rfl

/-! ### Raster symbols -/

theorem takeFrameStart_compositorLegal (h : s.CompositorLegal) : (takeFrameStart s).CompositorLegal := by
  have empty : (takeFrameStart s).compositor.candidates = [] := by
    simpa [takeFrameStart, decideCompositing] using trackFrameStart_candidates h
  exact {
    flag := fun set => by
      have decided : (takeFrameStart s).tracker.rasterState = .locked ∧ (takeFrameStart s).generations.activeMode ≠ .pass := by
        simpa [takeFrameStart, decideCompositing] using set
      exact ⟨decided.1, decided.2, by rw [takeFrameStart_tracker, afterFrameStart_inFrame]⟩
    clear := fun _ => empty
    between := fun _ => empty
    count := by simp [empty]
    budget := by simp [empty] }

/-- The tracker's part of a symbol that moves neither into nor out of a frame or a line. -/
theorem trackSymbol_compositorLegal (h : s.CompositorLegal) {x : FwdSymbol} (hx : x ≠ .frameStart)
    (frame : (s.tracker.move x).inFrame = s.tracker.inFrame) (line : (s.tracker.move x).inLine = s.tracker.inLine) :
    (trackSymbol x s).CompositorLegal := by
  rcases trackSymbol_compositing h x with ⟨flag, empty⟩ | ⟨compositor, -, -, -, tracker⟩
  · exact compositorLegal_of_clear flag empty
  · obtain ⟨state, -⟩ := move_frame s.tracker x hx
    exact compositorLegal_congr h compositor (by rw [tracker, state]) (by rw [tracker, frame]) (by rw [tracker, line])
      (.inl (by rw [trackSymbol_generations]))

/-- A good LINE_START begins its line with an empty list, and building it stays within both limits (R56). -/
theorem takeLineStart_compositorLegal (h : s.CompositorLegal) : (takeLineStart s).CompositorLegal := by
  obtain ⟨flag, clear, list⟩ := buildLine_frame (filterRaster .lineStart (trackSymbol .lineStart s))
  rw [filterRaster_compositor] at flag clear list
  rcases trackSymbol_compositing h .lineStart with ⟨unset, empty⟩ | ⟨compositor, set, locked, good, tracker⟩
  · have same := clear unset
    exact compositorLegal_of_clear (flag.trans unset) (by rw [takeLineStart, same, empty])
  · rw [compositor] at flag list
    obtain ⟨-, mode, inside⟩ := h.flag set
    have limits : (takeLineStart s).compositor.candidates.length ≤ 12 ∧
        ((takeLineStart s).compositor.candidates.map Candidate.cost).sum ≤ 2048 := by
      rcases list with old | new
      · rw [takeLineStart, old]; exact ⟨h.count, h.budget⟩
      · exact new
    have moved : (takeLineStart s).tracker = s.tracker.move .lineStart := by simp [takeLineStart, tracker]
    exact {
      flag := fun _ => by rw [moved]; exact ⟨locked, by simpa [takeLineStart] using mode, inside⟩
      clear := fun unset => by rw [takeLineStart, flag, set] at unset; cases unset
      between := fun outside => by rw [moved] at outside; cases outside
      count := limits.1
      budget := limits.2 }

theorem takePixel_compositorLegal (h : s.CompositorLegal) (c : Colour) : (takePixel c s).CompositorLegal := by
  have tracked : (trackSymbol (.pixel c) s).CompositorLegal :=
    trackSymbol_compositorLegal h (by simp) (by simp only [Tracker.move]; split <;> rfl)
      (by simp only [Tracker.move]; split <;> rfl)
  exact compositorLegal_frame tracked (by simp [takePixel]) (by simp [takePixel]) (by simp [takePixel])

theorem takeLineEnd_compositorLegal (h : s.CompositorLegal) : (takeLineEnd s).CompositorLegal where
  flag set := by
    have flag : (takeLineEnd s).compositor.compositing = (trackSymbol .lineEnd s).compositor.compositing := by
      simp [takeLineEnd, emptyCandidates]
    rcases trackSymbol_compositing h .lineEnd with ⟨unset, -⟩ | ⟨-, kept, -, -, tracker⟩
    · simp [flag, unset] at set
    · obtain ⟨locked, mode, inside⟩ := h.flag kept
      have frame : (s.tracker.move .lineEnd).inFrame = s.tracker.inFrame := by simp only [Tracker.move]; split <;> rfl
      have moved : (takeLineEnd s).tracker = s.tracker.move .lineEnd := by simp [takeLineEnd, tracker, emptyCandidates]
      rw [moved, (move_frame s.tracker .lineEnd (by simp)).1, frame]
      exact ⟨locked, by simpa [takeLineEnd, emptyCandidates] using mode, inside⟩
  clear _ := rfl
  between _ := rfl
  count := Nat.zero_le 12
  budget := Nat.zero_le 2048

theorem takeFrameEnd_compositorLegal (h : s.CompositorLegal) : (takeFrameEnd s).CompositorLegal := by
  have tracked : (trackSymbol .frameEnd s).compositor.compositing = false →
      (trackSymbol .frameEnd s).compositor.candidates = [] := by
    rcases trackSymbol_compositing h .frameEnd with ⟨-, empty⟩ | ⟨compositor, -⟩
    · exact fun _ => empty
    · rw [compositor]; exact h.clear
  obtain ⟨flag, empty⟩ := endCompositedFrame_clear (s := filterRaster .frameEnd (trackSymbol .frameEnd s)) (by simpa using tracked)
  exact compositorLegal_of_clear flag empty

/-! ### Packet symbols and host commands -/

/-- The active mode changes in a host command while the tracker is not LOCKED alone (R28, R43). -/
theorem handOver_activeMode (how : Addressing) (seq code : Byte) (p : List Byte) (s : State) :
    (handOver how seq code p s).generations.activeMode = s.generations.activeMode ∨ s.tracker.rasterState ≠ .locked := by
  rcases handOver_tables how seq code p s with same | ⟨u, found, tracker, -, answered, -⟩
  · exact .inl (by rw [same.generations])
  · rcases answer_activeSide code p u with stands | ⟨unlocked, -⟩
    · refine .inl ?_
      have mode := congrArg (fun side => side.2.1) stands
      rw [answered.generations, ← found.generations]
      exact mode
    · exact .inr fun locked => by simp [State.isLocked, tracker, locked] at unlocked

theorem handOver_compositorLegal (h : s.CompositorLegal) (how : Addressing) (seq code : Byte) (p : List Byte) :
    (handOver how seq code p s).CompositorLegal := by
  have front := handOver_front how seq code p s
  exact compositorLegal_congr h front.compositor (by rw [front.tracker]) (by rw [front.tracker]) (by rw [front.tracker])
    (handOver_activeMode how seq code p s)

theorem takeCommand_compositorLegal (h : s.CompositorLegal) (how : Addressing) (seq code : Byte) (p : List Byte) :
    (takeCommand how seq code p s).CompositorLegal := by
  unfold takeCommand
  split
  · exact handOver_compositorLegal h how seq code p
  · exact h

theorem decidePacket_compositorLegal (h : s.CompositorLegal) : (decidePacket s).CompositorLegal := by
  have released : (releaseAll (closePacket (join .packetEnd true s))).CompositorLegal := compositorLegal_frame h rfl rfl rfl
  have removed : (removeHeld (closePacket (join .packetEnd true s))).CompositorLegal := compositorLegal_frame h rfl rfl rfl
  unfold decidePacket
  dsimp only
  split
  · exact compositorLegal_frame released rfl rfl rfl
  · exact compositorLegal_frame released rfl rfl rfl
  · split
    · exact handOver_compositorLegal released _ _ _ _
    · split
      · exact handOver_compositorLegal removed _ _ _ _
      · exact released

theorem filterPacketEnd_compositorLegal (h : s.CompositorLegal) : (filterPacketEnd s).CompositorLegal := by
  unfold filterPacketEnd
  cases s.filter.reception with
  | holding => exact decidePacket_compositorLegal h
  | none => exact compositorLegal_frame h rfl rfl rfl
  | overlong => exact compositorLegal_frame h rfl rfl rfl
  | unexamined => exact compositorLegal_frame h rfl rfl rfl

/-! ### Any command -/

/-- A link down stops compositing whatever the tracker holds (R47, R112). -/
theorem loseForwardLink_compositorLegal (h : s.CompositorLegal) : (loseForwardLink s).CompositorLegal := by
  obtain ⟨flag, empty⟩ := stopCompositing_clear (s := trackLinkDown s) (by simpa using h.clear)
  exact compositorLegal_of_clear (by simpa [loseForwardLink] using flag) (by simpa [loseForwardLink] using empty)

theorem gainForwardLink_compositorLegal (h : s.CompositorLegal) : (gainForwardLink s).CompositorLegal := by
  unfold gainForwardLink
  dsimp only
  split <;> exact compositorLegal_frame h rfl rfl rfl

theorem endDrain_compositorLegal (h : s.CompositorLegal) : (endDrain s).CompositorLegal := by
  unfold endDrain
  split
  · exact h
  · exact compositorLegal_frame h (by simp) (by simp) (by simp)

theorem hardReset_compositorLegal (straps : BitVec 4) (s : State) : (hardReset straps s).CompositorLegal :=
  compositorLegal_of_clear rfl rfl

theorem exec_compositorLegal {c : Instr} (h : s.CompositorLegal) (run : exec c s = .next t) : t.CompositorLegal := by
  cases hc : carried c with
  | some x =>
    obtain ⟨how, seq, code, p⟩ := x
    rw [exec_host hc] at run
    exact Host.Outcome.next.inj run ▸ takeCommand_compositorLegal h how seq code p
  | none =>
    have packet : ∀ {x : FwdSymbol} {f : State → State}, x ≠ .frameStart → (∀ r : Tracker, r.move x = r) →
        (∀ u : State, u.CompositorLegal → (f u).CompositorLegal) →
        (onSymbol (fun u => f (trackSymbol x u)) s).CompositorLegal := fun hx still hf =>
      onSymbol_compositorLegal h (hf _ (trackSymbol_compositorLegal h hx (by rw [still]) (by rw [still])))
    have next : ∀ u : State, Host.Outcome.next u = (Host.Outcome.next t : Result) → u.CompositorLegal → t.CompositorLegal :=
      fun u same legal => Host.Outcome.next.inj same ▸ legal
    cases c <;> simp only [carried, reduceCtorEq] at hc
    case frameStart => exact next _ run (onSymbol_compositorLegal h (takeFrameStart_compositorLegal h))
    case lineStart => exact next _ run (onSymbol_compositorLegal h (takeLineStart_compositorLegal h))
    case pixel c0 c1 c2 => exact next _ run (onSymbol_compositorLegal h (takePixel_compositorLegal h _))
    case lineEnd => exact next _ run (onSymbol_compositorLegal h (takeLineEnd_compositorLegal h))
    case frameEnd => exact next _ run (onSymbol_compositorLegal h (takeFrameEnd_compositorLegal h))
    case packetStart =>
      exact next _ run (packet (by simp) (fun _ => rfl) fun u hu => compositorLegal_frame hu (by simp) (by simp) (by simp))
    case packetByte b =>
      exact next _ run (packet (by simp) (fun _ => rfl) fun u hu => compositorLegal_frame hu (by simp) (by simp) (by simp))
    case packetEnd => exact next _ run (packet (by simp) (fun _ => rfl) fun u hu => filterPacketEnd_compositorLegal hu)
    case idle =>
      exact next _ run (packet (by simp) (fun _ => rfl) fun u hu => compositorLegal_frame hu (by simp) (by simp) (by simp))
    case forwardLinkDown =>
      refine next _ run ?_
      split
      · exact loseForwardLink_compositorLegal h
      · exact h
    case forwardLinkUp =>
      refine next _ run ?_
      split
      · exact gainForwardLink_compositorLegal h
      · exact h
    case drainEnd => exact next _ run (endDrain_compositorLegal h)
    case resetAssert =>
      refine next _ run ?_
      split
      · exact h
      · exact compositorLegal_frame h (by simp [assertReset]) (by simp [assertReset]) (by simp [assertReset])
    case resetRelease straps => exact next _ run (hardReset_compositorLegal straps _)
    case powerUp straps => exact next _ run (hardReset_compositorLegal straps _)
    case returnOutputLinkDown => refine next _ run ?_; split <;> exact compositorLegal_frame h rfl rfl rfl
    case returnOutputLinkUp => refine next _ run ?_; split <;> exact compositorLegal_frame h rfl rfl rfl
    case returnInputLinkDown => refine next _ run ?_; split <;> exact compositorLegal_frame h rfl rfl rfl
    case returnInputLinkUp => refine next _ run ?_; split <;> exact compositorLegal_frame h rfl rfl rfl
    all_goals exact next _ run (compositorLegal_frame h (by simp) (by simp) (by simp))

end

end Sys2Proof.Machine

namespace Sys2Proof.LineComposition

open Sys2Proof.Machine

/-- Settles O13: a FRAME_START sets the flag under its two conditions and finds no candidate, a fault, a FRAME_END and a link down
clear both, and no host command changes the active mode while LOCKED. -/
theorem stepKeepsCompositorLegal : Obligations.StepKeepsCompositorLegal := by
  unfold Obligations.StepKeepsCompositorLegal
  intro s t h run
  unfold step at run
  split at run
  · exact Host.Outcome.next.inj run ▸ h
  · next c rest _ =>
    have loaded : ({ s with pending := rest } : State).CompositorLegal := compositorLegal_frame h rfl rfl rfl
    exact exec_compositorLegal loaded run

end Sys2Proof.LineComposition
end

section
/-! What FWD_OUT carries and what waits for it, in order: a slot moves the stream's symbols along, and a PIXEL joins it with its
outgoing value (R59, R63, R129). -/

namespace Sys2Proof.Machine

section
variable {s : State}

/-! ### The stream behind a slot of FWD_OUT -/

/-- What FWD_OUT carries in a slot that takes nothing from the hold queue stands between what it has carried and what waits. -/
theorem filter_forwardStream_send {f : FwdOutput → Bool} {x : FwdOutput} (hx : f x = false) (s : State) :
    (send x s).forwardStream.filter f = s.forwardStream.filter f := by
  simp [State.forwardStream, send, hx]

theorem filter_forwardStream_finishDrain {f : FwdOutput → Bool} (down : f .linkDown = false) (up : f .linkUp = false)
    (rest : List Nat) (s : State) : (finishDrain rest s).forwardStream.filter f = s.forwardStream.filter f := by
  have presented : (presentDown { s with drains := rest }).forwardStream.filter f = s.forwardStream.filter f :=
    filter_forwardStream_send down { s with drains := rest, fwdOutUp := false }
  unfold finishDrain
  dsimp only
  split
  · exact (filter_forwardStream_send up _).trans presented
  · exact presented

theorem filter_forwardStream_countDrained {f : FwdOutput → Bool} (down : f .linkDown = false) (up : f .linkUp = false)
    (s : State) : (countDrained s).forwardStream.filter f = s.forwardStream.filter f := by
  unfold countDrained
  split
  · rfl
  · split
    · exact filter_forwardStream_finishDrain down up _ s
    · rfl

/-- A slot of FWD_OUT neither loses nor moves a symbol of the stream: apart from IDLEs and the link state it presents, what it carries
is the head of the hold queue. -/
theorem filter_forwardStream_outputSlot {f : FwdOutput → Bool} (idle : f (.symbol .idle) = false) (down : f .linkDown = false)
    (up : f .linkUp = false) (s : State) : (outputSlot s).forwardStream.filter f = s.forwardStream.filter f := by
  unfold outputSlot
  split
  · exact filter_forwardStream_send idle s
  · next e q waits =>
    split
    · exact filter_forwardStream_send idle s
    · rw [filter_forwardStream_countDrained down up]
      simp [State.forwardStream, send, waits]

theorem outputSlot_rasterStream (s : State) : (outputSlot s).rasterStream = s.rasterStream :=
  filter_forwardStream_outputSlot rfl rfl rfl s

/-! ### A symbol that joins the stream -/

/-- The packet that a raster symbol ends stays in the stream as it stood (R127). -/
theorem endOpenPacket_forwardStream (s : State) : (endOpenPacket s).forwardStream = s.forwardStream := by
  have released : (releaseHeld s.filter.holdQueue).map (fun e => FwdOutput.symbol e.symbol) =
      s.filter.holdQueue.map fun e => FwdOutput.symbol e.symbol := by
    simp [releaseHeld]
  unfold endOpenPacket
  split
  · rfl
  · exact congrArg (s.fwdSent ++ ·) released
  · rfl
  · rfl

theorem filterRaster_forwardStream (x : FwdSymbol) (s : State) :
    (filterRaster x s).forwardStream = s.forwardStream ++ [.symbol x] := by
  rw [← endOpenPacket_forwardStream s]
  simp [filterRaster, State.forwardStream, join]

theorem trackSymbol_forwardStream (x : FwdSymbol) (s : State) : (trackSymbol x s).forwardStream = s.forwardStream := by
  simp [State.forwardStream]

/-! ### A PIXEL -/

theorem exec_pixel (receiving : s.receiving = true) (a b c : Nat) :
    exec (.pixel a b c) s = .next (outputSlot (takePixel ⟨a, b, c⟩ s)) :=
  congrArg Host.Outcome.next (onSymbol_receiving s (takePixel ⟨a, b, c⟩) receiving)

theorem pixel_rasterStream (c : Colour) (s : State) : (outputSlot (takePixel c s)).rasterStream =
    s.rasterStream ++ [.symbol (.pixel (outgoingPixel (trackSymbol (.pixel c) s) s.tracker.pixelsInLine c))] := by
  rw [outputSlot_rasterStream, State.rasterStream, takePixel, filterRaster_forwardStream, trackSymbol_forwardStream,
    List.filter_append]
  rfl

theorem pixel_compositor (c : Colour) (s : State) :
    (outputSlot (takePixel c s)).compositor = (trackSymbol (.pixel c) s).compositor := by
  simp [takePixel]

/-- No test of the tracker reads a pixel's value. -/
theorem after_pixel (c d : Colour) (r : Tracker) : r.after (.pixel c) = r.after (.pixel d) := by
  simp [Tracker.after, Tracker.measure, Tracker.irregularAt, Tracker.faultAt, Tracker.move, FwdSymbol.isRaster]

theorem trackSymbol_pixel_compositor (c d : Colour) (s : State) :
    (trackSymbol (.pixel c) s).compositor = (trackSymbol (.pixel d) s).compositor := by
  rw [trackSymbol_compositor, trackSymbol_compositor]
  rfl

/-- The flag is never set by a symbol's tracking. -/
theorem trackSymbol_unset (unset : s.compositor.compositing = false) (x : FwdSymbol) :
    (trackSymbol x s).compositor.compositing = false := by
  rw [trackSymbol_compositor]
  split
  · rfl
  · exact unset

/-- A symbol that is a fault of a locked frame leaves the flag clear (R47). -/
theorem trackSymbol_fault (legal : s.CompositorLegal) {x : FwdSymbol} (fault : s.tracker.faultAt x ≠ none) :
    (trackSymbol x s).compositor.compositing = false := by
  rcases trackSymbol_compositing legal x with ⟨unset, -⟩ | ⟨-, -, -, good, -⟩
  · exact unset
  · exact absurd good fault

/-- A PIXEL that finds the flag clear, or clears it as a fault, leaves with its input value, which no state but the stream keeps
(R63). -/
theorem pixel_passes {a b c : Nat} (receiving : s.receiving = true)
    (unset : (trackSymbol (.pixel ⟨a, b, c⟩) s).compositor.compositing = false) :
    ∃ t, exec (.pixel a b c) s = .next t ∧ t.compositor.compositing = false ∧
      t.rasterStream = s.rasterStream ++ [.symbol (.pixel ⟨a, b, c⟩)] ∧
      ∀ a' b' c', ∃ t', exec (.pixel a' b' c') s = .next t' ∧ t'.compositor = t.compositor ∧ t'.tracker = t.tracker := by
  refine ⟨_, exec_pixel receiving a b c, by rw [pixel_compositor, unset], ?_, fun a' b' c' =>
    ⟨_, exec_pixel receiving a' b' c', ?_, ?_⟩⟩
  · simp only [pixel_rasterStream, outgoingPixel, unset, Bool.false_eq_true, if_false]
  · rw [pixel_compositor, pixel_compositor, trackSymbol_pixel_compositor]
  · rw [outputSlot_tracker, outputSlot_tracker, takePixel_tracker, takePixel_tracker, after_pixel]

end

end Sys2Proof.Machine

namespace Sys2Proof.LineComposition

open Sys2Proof.Machine

/-- Settles O50: in every clause the flag is clear behind the tracker's part of the PIXEL, since it was clear before or the PIXEL is a
fault. -/
theorem pixelsPassUnchangedWhileFlagIsClear : Obligations.PixelsPassUnchangedWhileFlagIsClear := by
  unfold Obligations.PixelsPassUnchangedWhileFlagIsClear
  intro s a b c receiving legal passes
  have clear : s.compositor.compositing = false → passes := fun unset =>
    pixel_passes receiving (trackSymbol_unset unset _)
  have fault : s.tracker.faultAt (.pixel ⟨a, b, c⟩) ≠ none → passes := fun fault =>
    pixel_passes receiving (trackSymbol_fault legal fault)
  refine ⟨clear, fun plain => clear (Bool.eq_false_iff.mpr fun set => ?_), fun _ outside => fault ?_,
    fun g _ inside locked long => fault ?_⟩
  · obtain ⟨locked, mode, -⟩ := legal.flag set
    exact plain.elim mode fun unlocked => unlocked locked
  · simp [Tracker.faultAt, outside]
  · simp [Tracker.faultAt, inside, locked, long]

end Sys2Proof.LineComposition
end

section
/-! The value of a composited pixel (R48, R59 to R62): its base, what one candidate makes of it, and the bounds of a blend. -/

namespace Sys2Proof.Machine

/-! ### Blending (R62) -/

/-- Every component of `q` lies between those of `c` and `p`. -/
def Colour.Between (c p q : Colour) : Prop :=
  (min c.c0 p.c0 ≤ q.c0 ∧ q.c0 ≤ max c.c0 p.c0) ∧ (min c.c1 p.c1 ≤ q.c1 ∧ q.c1 ≤ max c.c1 p.c1) ∧
    min c.c2 p.c2 ≤ q.c2 ∧ q.c2 ≤ max c.c2 p.c2

/-- The effective alpha is at most 15. -/
theorem effectiveAlpha_le {alpha opacity : Nat} (ha : alpha ≤ 15) (ho : opacity ≤ 15) : alpha * opacity / 15 ≤ 15 := by
  have product : alpha * opacity ≤ 15 * 15 := Nat.mul_le_mul ha ho
  omega

/-- A component blended is the rounded mean of 15 parts, each one of the two values. -/
theorem blendComponent_between {a : Nat} (ha : a ≤ 15) (c prev : Nat) :
    min c prev ≤ blendComponent a c prev ∧ blendComponent a c prev ≤ max c prev := by
  have parts (m : Nat) : a * m + (15 - a) * m = 15 * m := by rw [← Nat.add_mul, Nat.add_sub_cancel' ha]
  have least := parts (min c prev)
  have greatest := parts (max c prev)
  have low := Nat.add_le_add (Nat.mul_le_mul_left a (min_le_left c prev)) (Nat.mul_le_mul_left (15 - a) (min_le_right c prev))
  have high := Nat.add_le_add (Nat.mul_le_mul_left a (le_max_left c prev)) (Nat.mul_le_mul_left (15 - a) (le_max_right c prev))
  rw [least] at low
  rw [greatest] at high
  unfold blendComponent
  omega

theorem blendComponent_opaque (c prev : Nat) : blendComponent 15 c prev = c := by
  unfold blendComponent
  omega

section
variable {e : PaletteEntry} {opacity : Nat} (prev : Colour)

/-- An effective alpha of 0 leaves the value as it is. -/
theorem blend_transparent (h : e.alpha * opacity < 15) : blend e opacity prev = prev := by
  simp [blend, Nat.div_eq_of_lt h]

/-- An opaque entry of an opaque record shows its own colour. -/
theorem blend_opaque (ha : e.alpha = 15) (ho : opacity = 15) : blend e opacity prev = e.colour := by
  simp [blend, ha, ho, blendComponent_opaque]

theorem blend_between (ha : e.alpha ≤ 15) (ho : opacity ≤ 15) : Colour.Between e.colour prev (blend e opacity prev) := by
  unfold blend
  dsimp only
  split
  · exact ⟨⟨min_le_right _ _, le_max_right _ _⟩, ⟨min_le_right _ _, le_max_right _ _⟩, min_le_right _ _, le_max_right _ _⟩
  · have effective := effectiveAlpha_le ha ho
    exact ⟨blendComponent_between effective _ _, blendComponent_between effective _ _, blendComponent_between effective _ _⟩

theorem blend_inRange (ho : opacity ≤ 15) (he : e.InRange) (hp : prev.InRange) : (blend e opacity prev).InRange := by
  obtain ⟨⟨he0, he1, he2⟩, ha⟩ := he
  obtain ⟨hp0, hp1, hp2⟩ := hp
  obtain ⟨⟨-, h0⟩, ⟨-, h1⟩, -, h2⟩ := blend_between prev ha ho
  exact ⟨h0.trans (max_le he0 hp0), h1.trans (max_le he1 hp1), h2.trans (max_le he2 hp2)⟩

end

/-! ### The bytes a pixel reads (R61, R70) -/

/-- Byte `n` of an image as a number, read through its page map. -/
theorem imageByte_toNat (m : Memory) (pageMap : List PageNo) (n : Nat) : (imageByte m pageMap n).toNat =
    match pageMap[n / 128]? with
    | some page => (Memory.read m (page.val * 128 + n % 128)).toNat
    | none => 0 := by
  simp only [imageByte, imageAddress, Config.pageBytes]
  cases pageMap[n / 128]? <;> rfl

/-! ### A composited pixel -/

section
variable {s : State}

/-- A symbol that is no fault of a locked frame moves the position alone (R100, R107). -/
theorem trackSymbol_good {x : FwdSymbol} (locked : s.tracker.rasterState = .locked) (good : s.tracker.faultAt x = none) :
    trackSymbol x s = { s with tracker := s.tracker.move x } := by
  simp [trackSymbol, locked, good]

theorem basePixel_eq (s : State) (input : Colour) :
    basePixel s input = if s.generations.activeMode = .backdrop then s.generations.activeFill else input := by
  unfold basePixel
  cases s.generations.activeMode <;> rfl

theorem outgoingPixel_composited (set : s.compositor.compositing = true) (r : Tracker) (x : Nat) (input : Colour) :
    outgoingPixel { s with tracker := r } x input = s.compositor.candidates.foldr (applyCandidate s x) (basePixel s input) :=
  if_pos set

theorem applyCandidate_uncovered {k : Candidate} {x : Nat} (outside : ¬(k.xa ≤ x ∧ x < k.xb)) (prev : Colour) :
    applyCandidate s x k prev = prev := if_neg outside

/-- A candidate whose span covers the column blends the palette entry that its image's index names. -/
theorem applyCandidate_covering {k : Candidate} {x : Nat} {o : ActiveObject} {im : Image} (left : k.xa ≤ x) (right : x < k.xb)
    (record : s.objects.activeAt k.objectId = some o) (image : s.images.imageAt o.fields.image = some im) (prev : Colour) :
    applyCandidate s x k prev = blend (s.palettes.entryAt o.fields.palette
      (paletteIndexOf s.images.memory o im (sourceColumnOf o im x) k.sourceRow)) o.fields.opacity prev := by
  have found : s.imageOf o = some im := image
  simp [applyCandidate, left, right, record, found]

/-- With no candidate over the column the base value stands. -/
theorem foldr_applyCandidate_uncovered {l : List Candidate} {x : Nat} (outside : ∀ k ∈ l, ¬(k.xa ≤ x ∧ x < k.xb))
    (base : Colour) : l.foldr (applyCandidate s x) base = base :=
  List.foldrRecOn (motive := (· = base)) l _ rfl fun _ same k hk => (applyCandidate_uncovered (outside k hk) _).trans same

end

end Sys2Proof.Machine

namespace Sys2Proof.LineComposition

open Sys2Proof.Machine

/-- Settles O51: the PIXEL is no fault, so the compositor computes its value in the state as it stood, and the statement's formula is
the compositor's, candidate by candidate. -/
theorem compositedPixelsAreBlended : Obligations.CompositedPixelsAreBlended := by
  unfold Obligations.CompositedPixelsAreBlended
  refine ⟨?_, fun e opacity prev ha ho =>
    ⟨blend_transparent prev, blend_opaque prev, blend_between prev ha ho, blend_inRange prev ho⟩⟩
  intro s g a b c receiving set locked geometry inside short x base index shown visit
  have good : s.tracker.faultAt (.pixel ⟨a, b, c⟩) = none := by
    simp [Tracker.faultAt, inside, geometry, Nat.not_le.mpr short]
  have tracked := trackSymbol_good locked good
  have indices (k : Candidate) (o : ActiveObject) (im : Image) :
      paletteIndexOf s.images.memory o im (sourceColumnOf o im x) k.sourceRow = index k o im := by
    simp only [paletteIndexOf, imageByte_toNat]
    rfl
  have visits : applyCandidate s x = visit := by
    funext k prev
    simp only [applyCandidate, indices]
    rfl
  have value : outgoingPixel (trackSymbol (.pixel ⟨a, b, c⟩) s) s.tracker.pixelsInLine ⟨a, b, c⟩ =
      s.compositor.candidates.foldr (applyCandidate s x) base := by
    rw [tracked, outgoingPixel_composited set, basePixel_eq]
  refine ⟨_, s.compositor.candidates.foldr (applyCandidate s x) base, exec_pixel receiving a b c, ?_, ?_, by rw [visits],
    fun outside => foldr_applyCandidate_uncovered outside base, ?_⟩
  · rw [pixel_rasterStream, value]
  · rw [pixel_compositor, tracked]
  · intro k rest o im nearest left right record image opacity e alpha
    rw [nearest, List.foldr_cons, applyCandidate_covering left right record image, indices]
    exact blend_opaque _ alpha opacity

end Sys2Proof.LineComposition
end

section
/-! The candidate list of a line (R51 to R57, R64): which records are eligible, their order, and how many of them both limits admit. -/

namespace Sys2Proof.Machine

section
variable {s : State}

/-! ### The eligible records (R52, R53, R55, R57, R60) -/

theorem onLine_iff (o : ActiveObject) (im : Image) (y : Nat) : onLine o im y = true ↔
    (o.ey ≤ y ∧ (y : Int) < o.ey + im.height * o.fields.scaleY) ∧ ∀ k, o.fields.clip = some k → k.y0 ≤ y ∧ y < k.y1 := by
  unfold onLine
  cases o.fields.clip <;> simp

/-- The span, with a clip's columns where there is one. -/
theorem spanOf_eq (o : ActiveObject) (im : Image) (w : Nat) : spanOf o im w =
    (max (max o.ex 0) ((o.fields.clip.map Clip.x0).getD 0 : Nat),
      min (min (o.ex + im.width * o.fields.scaleX) w) ((o.fields.clip.map Clip.x1).getD w : Nat)) := by
  unfold spanOf
  cases o.fields.clip <;> simp

/-- On a line that the record meets, the source row lies in the image, and flipping it subtracts what can be subtracted. -/
theorem sourceRowOf_eq {o : ActiveObject} {im : Image} {y : Nat} (above : o.ey ≤ y)
    (below : (y : Int) < o.ey + im.height * o.fields.scaleY) : (sourceRowOf o im y : Int) =
      if o.fields.flipV = true then (im.height : Int) - 1 - ((y : Int) - o.ey) / o.fields.scaleY
      else ((y : Int) - o.ey) / o.fields.scaleY := by
  have scale : 0 < (o.fields.scaleY : Int) := by
    by_contra flat
    have zero : (o.fields.scaleY : Int) = 0 := by omega
    rw [zero, mul_zero] at below
    omega
  have low : 0 ≤ ((y : Int) - o.ey) / o.fields.scaleY := Int.ediv_nonneg (by omega) scale.le
  have high : ((y : Int) - o.ey) / o.fields.scaleY < im.height := Int.ediv_lt_of_lt_mul scale (by omega)
  unfold sourceRowOf
  dsimp only
  split <;> omega

/-- A span that is not empty has at least one source column. -/
theorem costOf_eq (o : ActiveObject) {xa xb : Int} (h : xa < xb) :
    (costOf o xa xb : Int) = (xb - 1 - o.ex) / o.fields.scaleX - (xa - o.ex) / o.fields.scaleX + 1 := by
  have order : (xa - o.ex) / (o.fields.scaleX : Int) ≤ (xb - 1 - o.ex) / o.fields.scaleX := by
    rcases Nat.eq_zero_or_pos o.fields.scaleX with zero | positive
    · simp [zero]
    · exact Int.ediv_le_ediv (by omega) (by omega)
  unfold costOf
  omega

theorem eligibleOn_found {w y id : Nat} {o : ActiveObject} {im : Image} (record : s.objects.activeAt id = some o)
    (image : s.images.imageAt o.fields.image = some im) : eligibleOn s w y id =
      if o.fields.visible && onLine o im y && decide ((spanOf o im w).1 < (spanOf o im w).2) then
        some ⟨id, (spanOf o im w).1.toNat, (spanOf o im w).2.toNat, costOf o (spanOf o im w).1 (spanOf o im w).2,
          sourceRowOf o im y⟩
      else none := by
  have found : s.imageOf o = some im := image
  simp only [eligibleOn, record, found]

/-- An eligible record is an active one whose image exists. -/
theorem eligibleOn_some {w y id : Nat} {c : Candidate} (h : eligibleOn s w y id = some c) :
    ∃ o im, s.objects.activeAt id = some o ∧ s.images.imageAt o.fields.image = some im := by
  unfold eligibleOn at h
  split at h
  · cases h
  · next o record =>
    split at h
    · cases h
    · next im image => exact ⟨o, im, record, image⟩

/-- The eligible records of a line are its candidates, each under its own id. -/
theorem eligibleOn_iff (w y id : Nat) (c : Candidate) :
    eligibleOn s w y id = some c ↔ s.IsCandidate w y c ∧ c.objectId = id := by
  constructor
  · intro h
    obtain ⟨o, im, record, image⟩ := eligibleOn_some h
    rw [eligibleOn_found record image] at h
    split at h
    · next eligible =>
      simp only [Bool.and_eq_true, decide_eq_true_eq, onLine_iff] at eligible
      obtain ⟨⟨visible, line, clip⟩, span⟩ := eligible
      cases h
      refine ⟨⟨o, im, record, image, activeAt_lt record, visible, line, clip, ?_⟩, rfl⟩
      have cost := costOf_eq o span
      have left : 0 ≤ (spanOf o im w).1 := by rw [spanOf_eq]; omega
      have xa : ((spanOf o im w).1.toNat : Int) = (spanOf o im w).1 := Int.toNat_of_nonneg left
      have xb : ((spanOf o im w).2.toNat : Int) = (spanOf o im w).2 := Int.toNat_of_nonneg (by omega)
      have order : (spanOf o im w).1.toNat < (spanOf o im w).2.toNat := by omega
      rw [xa, xb]
      exact ⟨by rw [spanOf_eq], by rw [spanOf_eq], order, cost, sourceRowOf_eq line.1 line.2⟩
    · cases h
  · rintro ⟨⟨o, im, record, image, -, visible, line, clip, xa, xb, span, cost, row⟩, rfl⟩
    have left : (spanOf o im w).1 = c.xa := by rw [spanOf_eq, xa]
    have right : (spanOf o im w).2 = c.xb := by rw [spanOf_eq, xb]
    have columns := costOf_eq o (xa := c.xa) (xb := c.xb) (by omega)
    have shown := sourceRowOf_eq line.1 line.2
    rw [eligibleOn_found record image, left, right, if_pos]
    · simp only [Int.toNat_natCast, Option.some.injEq]
      congr 1 <;> omega
    · simp only [Bool.and_eq_true, decide_eq_true_eq, onLine_iff]
      exact ⟨⟨visible, line, clip⟩, by omega⟩

/-! ### Priority order (R54) -/

theorem before_iff (a b : Candidate) : before s a b = true ↔
    s.depthValue b.objectId < s.depthValue a.objectId ∨
      s.depthValue a.objectId = s.depthValue b.objectId ∧ a.objectId < b.objectId := by
  simp [before]

theorem before_trans {a b c : Candidate} (hab : before s a b = true) (hbc : before s b c = true) : before s a c = true := by
  rw [before_iff] at *
  omega

/-- Of two different records one comes first. -/
theorem before_connected {a b : Candidate} (different : a.objectId ≠ b.objectId) (h : ¬before s a b = true) :
    before s b a = true := by
  rw [before_iff] at *
  omega

theorem insertByPriority_perm (s : State) (c : Candidate) (l : List Candidate) : (insertByPriority s c l).Perm (c :: l) := by
  induction l with
  | nil => exact .refl _
  | cons d l ih =>
    unfold insertByPriority
    split
    · exact .refl _
    · exact (ih.cons d).trans (.swap c d l)

theorem insertByPriority_sorted {c : Candidate} {l : List Candidate} (sorted : l.Pairwise fun a b => before s a b = true)
    (new : ∀ d ∈ l, c.objectId ≠ d.objectId) : (insertByPriority s c l).Pairwise fun a b => before s a b = true := by
  induction l with
  | nil => exact .cons nofun .nil
  | cons d l ih =>
    obtain ⟨first, rest⟩ := List.pairwise_cons.mp sorted
    unfold insertByPriority
    split
    · next h => exact .cons (List.forall_mem_cons.mpr ⟨h, fun e he => before_trans h (first e he)⟩) sorted
    · next h =>
      obtain ⟨other, others⟩ := List.forall_mem_cons.mp new
      refine .cons (fun e he => ?_) (ih rest others)
      rcases List.mem_cons.mp ((insertByPriority_perm s c l).mem_iff.mp he) with rfl | old
      · exact before_connected other h
      · exact first e old

/-- Records under different ids, put into their places one by one. -/
theorem foldr_insertByPriority {l : List Candidate} (different : l.Pairwise fun a b => a.objectId ≠ b.objectId) :
    (l.foldr (insertByPriority s) []).Perm l ∧
      (l.foldr (insertByPriority s) []).Pairwise fun a b => before s a b = true := by
  induction l with
  | nil => exact ⟨.refl _, .nil⟩
  | cons c l ih =>
    obtain ⟨new, rest⟩ := List.pairwise_cons.mp different
    obtain ⟨perm, sorted⟩ := ih rest
    exact ⟨(insertByPriority_perm s c _).trans (perm.cons c),
      insertByPriority_sorted sorted fun d hd => new d (perm.mem_iff.mp hd)⟩

theorem eligible_different (s : State) (w y : Nat) :
    ((List.range Config.objectCount).filterMap (eligibleOn s w y)).Pairwise fun a b => a.objectId ≠ b.objectId := by
  refine List.Pairwise.filterMap (R := (· ≠ ·)) _ (fun i j other a ha b hb => ?_) List.nodup_range
  rw [((eligibleOn_iff w y i a).mp ha).2, ((eligibleOn_iff w y j b).mp hb).2]
  exact other

theorem eligibleList_sorted (s : State) (w y : Nat) : (eligibleList s w y).Pairwise fun a b => before s a b = true :=
  (foldr_insertByPriority (eligible_different s w y)).2

theorem mem_eligibleList (w y : Nat) (c : Candidate) : c ∈ eligibleList s w y ↔ s.IsCandidate w y c := by
  have perm : (eligibleList s w y).Perm _ := (foldr_insertByPriority (eligible_different s w y)).1
  rw [perm.mem_iff, List.mem_filterMap]
  constructor
  · rintro ⟨id, -, h⟩
    exact ((eligibleOn_iff w y id c).mp h).1
  · intro h
    have ⟨_, _, _, _, range, _⟩ := h
    exact ⟨c.objectId, List.mem_range.mpr range, (eligibleOn_iff w y _ c).mpr ⟨h, rfl⟩⟩

/-! ### Admission (R56, R58) -/

/-- A candidate reads at most as many source columns as its image is wide. -/
theorem candidate_cost_le {w y : Nat} {c : Candidate} (entries : s.images.EntriesLegal) (records : s.objects.RecordsInRange)
    (h : s.IsCandidate w y c) : c.cost ≤ 256 := by
  obtain ⟨o, im, record, image, -, -, -, -, xa, xb, -, cost, -⟩ := h
  obtain ⟨scale, -⟩ := (records.2 _ _ record).scaleX
  have width : im.width ≤ 256 := by
    have shape := (entries _ _ image).shape
    simp only [imageShapeInRange, Bool.and_eq_true, decide_eq_true_eq] at shape
    exact shape.1.1.1.2
  have positive : 0 < (o.fields.scaleX : Int) := by omega
  have last : ((c.xb : Int) - 1 - o.ex) / o.fields.scaleX < im.width := Int.ediv_lt_of_lt_mul positive (by omega)
  have first : 0 ≤ ((c.xa : Int) - o.ex) / o.fields.scaleX := Int.ediv_nonneg (by omega) positive.le
  omega

/-- Where no record costs more than 256 the first 8 are admitted. -/
theorem admitted_eight {l : List Candidate} (cheap : ∀ c ∈ l, c.cost ≤ 256) : min 8 l.length ≤ (admitted l 0 0).length := by
  by_contra few
  have inside : (admitted l 0 0).length < l.length := by omega
  have stops := admitted_stops l 0 0 (by omega) (List.getElem?_eq_getElem inside)
  have next := cheap _ (List.getElem_mem inside)
  have total : ((admitted l 0 0).map Candidate.cost).sum ≤ (admitted l 0 0).length * 256 := by
    have each : ∀ n ∈ (admitted l 0 0).map Candidate.cost, n ≤ 256 := by
      intro n hn
      obtain ⟨c, hc, rfl⟩ := List.mem_map.mp hn
      exact cheap c ((admitted_prefix l 0 0).mem hc)
    simpa using List.sum_le_card_nsmul _ 256 each
  omega

/-! ### The line built -/

theorem afterLine_whole {w : WorkingSummary} {y omitted : Nat} (h : omitted = 0) : w.afterLine y omitted = w := if_pos h

theorem afterLine_cut {w : WorkingSummary} {y omitted : Nat} (h : omitted ≠ 0) : w.afterLine y omitted =
    ⟨w.linesTruncated + 1, some (w.firstLine.getD y), min 65535 (w.recordsOmitted + omitted)⟩ := if_neg h

/-- The compositor with the list of line `y` on a raster `w` pixels wide, and what the line omits counted (R56, R64). -/
def State.lineBuilt (s : State) (w y : Nat) : Compositor :=
  { s.compositor with
    candidates := admitted (eligibleList s w y) 0 0
    working := s.compositor.working.afterLine y ((eligibleList s w y).length - (admitted (eligibleList s w y) 0 0).length) }

theorem buildLine_composited {g : Geometry} (set : s.compositor.compositing = true) (geometry : s.tracker.locked = some g) :
    (buildLine s).compositor = s.lineBuilt g.w (s.tracker.linesBegun - 1) := by
  unfold buildLine
  rw [set, geometry]
  rfl

/-- The list of a line looks at the records and the images alone. -/
theorem eligibleList_congr {t : State} (objects : t.objects = s.objects) (images : t.images = s.images) (w y : Nat) :
    eligibleList t w y = eligibleList s w y := by
  have depth (id : Nat) : t.depthValue id = s.depthValue id := by simp only [State.depthValue, objects]
  have order (c d : Candidate) : before t c d = before s c d := by
    rw [Bool.eq_iff_iff, before_iff, before_iff, depth, depth]
  have insert : insertByPriority t = insertByPriority s := by
    funext c l
    induction l with
    | nil => rfl
    | cons d l ih => simp only [insertByPriority, order, ih]
  have eligible : eligibleOn t w y = eligibleOn s w y := by
    funext id
    simp only [eligibleOn, State.imageOf, objects, images]
  rw [eligibleList, eligibleList, insert, eligible]

/-- The earlier stages of a LINE_START leave all that its list is built from. -/
theorem lineBuilt_congr {t : State} (objects : t.objects = s.objects) (images : t.images = s.images)
    (compositor : t.compositor = s.compositor) (w y : Nat) : t.lineBuilt w y = s.lineBuilt w y := by
  rw [State.lineBuilt, State.lineBuilt, eligibleList_congr objects images, compositor]

/-- A good LINE_START of a composited frame builds the list of the line it begins, whose number is the count of lines begun
before it. -/
theorem exec_lineStart_composited {g : Geometry} (receiving : s.receiving = true) (set : s.compositor.compositing = true)
    (geometry : s.tracker.locked = some g) (locked : s.tracker.rasterState = .locked)
    (good : s.tracker.faultAt .lineStart = none) (count : s.tracker.linesBegun < 4097) :
    ∃ t, exec .lineStart s = .next t ∧ t.compositor = s.lineBuilt g.w s.tracker.linesBegun := by
  have run : exec .lineStart s = .next (outputSlot (takeLineStart s)) :=
    congrArg Host.Outcome.next (onSymbol_receiving s takeLineStart receiving)
  refine ⟨_, run, ?_⟩
  have number : (s.tracker.move .lineStart).linesBegun - 1 = s.tracker.linesBegun := by
    simp only [Tracker.move, satSucc, Config.countStop, count, if_true]
    omega
  have tracked := trackSymbol_good locked good
  rw [outputSlot_compositor, takeLineStart, buildLine_composited (g := g) (by simp [tracked, set])
    (by simp [tracked, Tracker.move, geometry]), lineBuilt_congr (s := s) (by simp) (by simp) (by simp [tracked]),
    filterRaster_tracker, tracked, number]

end

end Sys2Proof.Machine

namespace Sys2Proof.LineComposition

open Sys2Proof.Machine

/-- Settles O52: the LINE_START is no fault, so the compositor builds the list of the line whose number the tracker has just
counted, from records in strict priority order, and admission stops at the first that fails a limit. -/
theorem lineStartAdmitsThePrefix : Obligations.LineStartAdmitsThePrefix := by
  unfold Obligations.LineStartAdmitsThePrefix
  intro s g receiving set locked geometry inside outside short count y
  have good : s.tracker.faultAt .lineStart = none := by simp [Tracker.faultAt, inside, outside, geometry, short]
  obtain ⟨t, run, compositor⟩ := exec_lineStart_composited receiving set geometry locked good count
  have members := mem_eligibleList (s := s) g.w y
  obtain ⟨length, cost⟩ := admitted_within (eligibleList s g.w y) 0 0 (by omega) (by omega)
  have stops := fun c => admitted_stops (eligibleList s g.w y) 0 0 (c := c) (by omega)
  simp only [Nat.zero_add] at length cost stops
  refine ⟨t, eligibleList s g.w y, run, members, eligibleList_sorted s g.w y, ?_⟩
  rw [compositor]
  refine ⟨admitted_prefix _ 0 0, length, cost, stops, fun whole => ?_, fun cut => ?_, fun entries records => ?_⟩
  · exact afterLine_whole (Nat.sub_eq_zero_of_le whole.le)
  · exact afterLine_cut (Nat.sub_pos_of_lt cut).ne'
  · exact admitted_eight fun c hc => candidate_cost_le entries records ((members c).mp hc)

end Sys2Proof.LineComposition
end

section
/-! What any command can do to the image store, said once, and what of it stands behind every command: each page in one place, each
directory entry consistent, the canonical form of the bytes (R67 to R72). -/

namespace Sys2Proof.Machine

/-! ### An image written into the directory -/

/-- The image of a handle replaced, its counts kept. -/
def ImageStore.setImage (st : ImageStore) (h : Nat) (im : Image) : ImageStore :=
  st.setEntry h { st.entry h with image := some im }

/-- The store after an accepted CREATE_IMAGE (R75). -/
def ImageStore.created (st : ImageStore) (h w ht d : Nat) : ImageStore :=
  ImageStore.setImage { st with freePages := st.freePages.drop (pagesFor (rowLengthOf w d * ht)) } h (newImage st w ht d)

/-- The store after an accepted LOAD_IMAGE of these bytes (R77). -/
def ImageStore.loaded (st : ImageStore) (h : Nat) (im : Image) (bytes : List Byte) : ImageStore :=
  ImageStore.setImage { st with memory := writeImageBytes st.memory im.pageMap im.cursor bytes } h (im.advance bytes.length)

/-- The image after RESTART_IMAGE (R79). -/
def Image.restarted (im : Image) : Image := { im with phase := .loading, cursor := 0 }

theorem entry_setImage (st : ImageStore) {h : Nat} (hh : h < 128) (im : Image) (k : Nat) :
    (st.setImage h im).entry k = if k = h then { st.entry h with image := some im } else st.entry k :=
  entry_setEntry _ _ _ _ hh

theorem pages_of_imageAt {st : ImageStore} {h : Nat} {im : Image} (found : st.imageAt h = some im) :
    (st.entry h).pages = im.pageMap := by
  rw [ImageStore.imageAt] at found
  simp only [ImageEntry.pages, found]

theorem pages_of_free {st : ImageStore} {h : Nat} (free : st.imageAt h = none) : (st.entry h).pages = [] := by
  rw [ImageStore.imageAt] at free
  simp only [ImageEntry.pages, free]

/-! ### What a command makes of the store -/

/-- What one command other than a hard reset's end can make of the image store. -/
inductive StoreEffect (st : ImageStore) : ImageStore → Prop
  /-- The store stands. -/
  | same : StoreEffect st st
  /-- An edit of a staged record moves its reference (R8). -/
  | counts (old new : Option Nat) : StoreEffect st (st.moveRef old new)
  /-- The apply (R32). -/
  | apply : StoreEffect st st.applyCounts
  /-- DISCARD (R41). -/
  | discard : StoreEffect st st.discardCounts
  /-- CLEAR_ALL while LOCKED (R43). -/
  | clear : StoreEffect st st.clearCounts
  /-- CLEAR_ALL that makes the apply at once (R43). -/
  | clearNow : StoreEffect st st.clearCounts.applyCounts
  /-- CREATE_IMAGE (R75). -/
  | create (h w ht d : Nat) (handle : h < 128) (free : st.imageAt h = none) (shape : imageShapeInRange w ht d = true)
      (room : pagesFor (rowLengthOf w d * ht) ≤ st.freePages.length) : StoreEffect st (st.created h w ht d)
  /-- LOAD_IMAGE (R77). -/
  | load (h : Nat) (im : Image) (bytes : List Byte) (handle : h < 128) (found : st.imageAt h = some im)
      (loading : im.phase = .loading) (room : im.cursor + bytes.length ≤ im.size) : StoreEffect st (st.loaded h im bytes)
  /-- RESTART_IMAGE (R79). -/
  | restart (h : Nat) (im : Image) (handle : h < 128) (found : st.imageAt h = some im) :
      StoreEffect st (st.setImage h im.restarted)
  /-- RELEASE_IMAGE of an image still drawn (R81). -/
  | retire (h : Nat) (im : Image) (handle : h < 128) (found : st.imageAt h = some im) (ready : im.phase = .ready) :
      StoreEffect st (st.setImage h { im with phase := .retiring })
  /-- RELEASE_IMAGE of an image not drawn (R81). -/
  | release (h : Nat) (handle : h < 128) : StoreEffect st (st.freeImage h)

/-- Every block's answer has one of these effects. -/
theorem answer_images (code : Byte) (p : List Byte) (s : State) : StoreEffect s.images (dispatch code p s).state.images := by
  have answered := dispatch_answered code p s
  generalize (dispatch code p s).state = t at answered ⊢
  cases answered with
  | define => exact .counts _ _
  | move => exact .counts _ _
  | attr => exact .counts _ _
  | delete => exact .counts _ _
  | now => exact .apply
  | discard => exact .discard
  | clearArmed => exact .clear
  | clearNow => exact .clearNow
  | create _ handle free shape room => exact .create _ _ _ _ handle free shape room
  | load _ handle im found loading offset room =>
    rw [offset] at room ⊢
    exact .load _ im _ handle found loading room
  | restart _ handle im found => exact .restart _ im handle found
  | retire _ handle im found ready => exact .retire _ im handle found ready
  | release _ handle => exact .release _ handle
  | _ => exact .same

/-- Every command but a hard reset's end has one of these effects. -/
theorem exec_images {c : Instr} {s t : State} (h : exec c s = .next t) (hc : isHardReset c = false) :
    StoreEffect s.images t.images := by
  rcases exec_tables h hc with same | ⟨-, -, -, applied⟩ | ⟨code, p, u, found, answered, -⟩
  · exact same.images ▸ .same
  · exact applied.images ▸ .apply
  · rw [answered.images, ← found.images]
    exact answer_images code p u

/-- What holds of the store after reset, and is kept by each of these effects, is kept by every step. -/
theorem step_keeps_images (P : ImageStore → Prop) (reset : P ImageStore.reset)
    (keeps : ∀ {st st'}, StoreEffect st st' → P st → P st') {s t : State} (hs : P s.images) (h : step s = .next t) :
    P t.images :=
  step_keeps (fun s => P s.images) (fun _ _ same hs => same.images ▸ hs) reset (fun _ => keeps .apply)
    (fun code p s => keeps (answer_images code p s)) hs h

/-! ### Every page in one place (R68) -/

section
variable (st : ImageStore) (p : PageNo)

/-- An image replaced by one with the same page map leaves every page as often used. -/
theorem pageUses_setImage {h : Nat} {im im' : Image} (handle : h < 128) (found : st.imageAt h = some im)
    (pages : im'.pageMap = im.pageMap) : (st.setImage h im').pageUses p = st.pageUses p := by
  have moved := pageUses_setEntry st h handle { st.entry h with image := some im' } p
  have new : ImageEntry.pages { st.entry h with image := some im' } = im.pageMap := pages
  rw [new, pages_of_imageAt found] at moved
  exact Nat.add_right_cancel moved

/-- How often a page is used after the free page list is replaced: the old list's uses out, the new list's in. -/
theorem pageUses_setFreePages (l : List PageNo) :
    ImageStore.pageUses { st with freePages := l } p + st.freePages.count p = st.pageUses p + l.count p := by
  simp only [ImageStore.pageUses]
  omega

/-- Pages taken from the head of the free page list into the page map of a FREE entry stay as often used. -/
theorem pageUses_takePages {h n : Nat} {im : Image} (handle : h < 128) (free : st.imageAt h = none)
    (pages : im.pageMap = st.freePages.take n) :
    (ImageStore.setImage { st with freePages := st.freePages.drop n } h im).pageUses p = st.pageUses p := by
  have taken := pageUses_setFreePages st p (st.freePages.drop n)
  have moved : (ImageStore.setImage { st with freePages := st.freePages.drop n } h im).pageUses p +
      (st.entry h).pages.count p =
      ImageStore.pageUses { st with freePages := st.freePages.drop n } p + im.pageMap.count p :=
    pageUses_setEntry { st with freePages := st.freePages.drop n } h handle _ p
  have whole : (st.freePages.take n).count p + (st.freePages.drop n).count p = st.freePages.count p := by
    rw [← List.count_append, List.take_append_drop]
  rw [pages_of_free free, pages, List.count_nil] at moved
  omega

/-- The page map of an image that goes FREE joins the free page list. -/
theorem pageUses_freeImage {h : Nat} (handle : h < 128) : (st.freeImage h).pageUses p = st.pageUses p := by
  have joined := pageUses_setFreePages st p (st.freePages ++ (st.entry h).pages)
  have moved : (st.freeImage h).pageUses p + (st.entry h).pages.count p =
      ImageStore.pageUses { st with freePages := st.freePages ++ (st.entry h).pages } p + 0 :=
    pageUses_setEntry { st with freePages := st.freePages ++ (st.entry h).pages } h handle ImageEntry.free p
  rw [List.count_append] at joined
  omega

theorem pages_afterApply (e : ImageEntry) : e.afterApply.pages = if e.freedByApply then [] else e.pages := by
  unfold ImageEntry.afterApply
  split <;> rfl

theorem pages_afterClear (e : ImageEntry) : e.afterClear.pages = if e.freedByClear then [] else e.pages := by
  unfold ImageEntry.afterClear
  split
  · rfl
  · split
    · cases him : e.image <;> simp [ImageEntry.pages, him]
    · rfl

theorem pages_afterDiscard (e : ImageEntry) : e.afterDiscard.pages = e.pages := by
  cases him : e.image with
  | none => simp [ImageEntry.afterDiscard, ImageEntry.pages, him]
  | some im =>
    simp only [ImageEntry.afterDiscard, ImageEntry.pages, him, Option.map_some]
    split <;> rfl

theorem pageUses_applyCounts : st.applyCounts.pageUses p = st.pageUses p :=
  pageUses_free st _ _ (fun e freed => by rw [pages_afterApply, if_pos freed])
    (fun e kept => by rw [pages_afterApply, kept, if_neg Bool.false_ne_true]) p

theorem pageUses_clearCounts : st.clearCounts.pageUses p = st.pageUses p :=
  pageUses_free st _ _ (fun e freed => by rw [pages_afterClear, if_pos freed])
    (fun e kept => by rw [pages_afterClear, kept, if_neg Bool.false_ne_true]) p

theorem pageUses_discardCounts : st.discardCounts.pageUses p = st.pageUses p := by
  simp only [ImageStore.pageUses, ImageStore.discardCounts, Vector.toList_map, List.map_map, Function.comp_def,
    pages_afterDiscard]

variable {st} in
/-- No command but a hard reset's end changes how often a page is used. -/
theorem StoreEffect.pageUses {st' : ImageStore} (effect : StoreEffect st st') : st'.pageUses p = st.pageUses p := by
  cases effect with
  | same => rfl
  | counts old new => exact pages_moveRef st old new p
  | apply => exact pageUses_applyCounts st p
  | discard => exact pageUses_discardCounts st p
  | clear => exact pageUses_clearCounts st p
  | clearNow => exact (pageUses_applyCounts _ p).trans (pageUses_clearCounts st p)
  | create h w ht d handle free => exact pageUses_takePages st p handle free rfl
  | load h im bytes handle found =>
    exact pageUses_setImage { st with memory := writeImageBytes st.memory im.pageMap im.cursor bytes } p handle found rfl
  | restart h im handle found => exact pageUses_setImage st p handle found rfl
  | retire h im handle found => exact pageUses_setImage st p handle found rfl
  | release h handle => exact pageUses_freeImage st p handle

/-- The uses in the page maps of two images are uses. -/
theorem count_pages_le {h k : Nat} (hh : h < 128) (hk : k < 128) (different : h ≠ k) :
    (st.entry h).pages.count p + (st.entry k).pages.count p ≤ st.pageUses p := by
  have first := pageUses_setEntry st h hh ImageEntry.free p
  have second := pageUses_setEntry (st.setEntry h ImageEntry.free) k hk ImageEntry.free p
  have none : ImageEntry.free.pages.count p = 0 := rfl
  rw [none] at first second
  rw [entry_setEntry st h k _ hh, if_neg different.symm] at second
  omega

end

section
variable {st : ImageStore} {h k : Nat} {im im' : Image}

/-- The page map of an image names no page twice. -/
theorem ImageStore.PageLaw.nodup (law : st.PageLaw) (found : st.imageAt h = some im) : im.pageMap.Nodup := by
  rw [List.nodup_iff_count_le_one]
  intro p
  have moved := pageUses_setEntry st h (imageAt_lt found) ImageEntry.free p
  have none : ImageEntry.free.pages.count p = 0 := rfl
  rw [pages_of_imageAt found, law p, none] at moved
  omega

/-- A page stands in the page map of one image alone. -/
theorem ImageStore.PageLaw.same_handle (law : st.PageLaw) (found : st.imageAt h = some im) (found' : st.imageAt k = some im')
    {p : PageNo} (mem : p ∈ im.pageMap) (mem' : p ∈ im'.pageMap) : h = k := by
  by_contra different
  have uses := count_pages_le st p (imageAt_lt found) (imageAt_lt found') different
  rw [pages_of_imageAt found, pages_of_imageAt found', law p] at uses
  have := List.count_pos_iff.mpr mem
  have := List.count_pos_iff.mpr mem'
  omega

end

/-! ### Consistent entries (R69, R70) -/

theorem ceilDiv_pos {a b : Nat} (ha : 0 < a) (hb : 0 < b) : 0 < ceilDiv a b :=
  Nat.div_pos (by omega) hb

theorem imageShapeInRange_iff (w h d : Nat) :
    imageShapeInRange w h d = true ↔ (1 ≤ w ∧ w ≤ 256) ∧ (1 ≤ h ∧ h ≤ 256) ∧ (d = 4 ∨ d = 8) := by
  simp [imageShapeInRange, and_assoc]

/-- A shape in range has a byte. -/
theorem shape_size_pos {w h d : Nat} (shape : imageShapeInRange w h d = true) : 0 < rowLengthOf w d * h := by
  obtain ⟨⟨hw, -⟩, ⟨hh, -⟩, hd⟩ := (imageShapeInRange_iff w h d).mp shape
  have bits : 0 < w * d := Nat.mul_pos hw (by omega)
  exact Nat.mul_pos (ceilDiv_pos bits (by decide)) hh

section
variable {im : Image}

theorem newImage_legal {st : ImageStore} {w h d : Nat} (shape : imageShapeInRange w h d = true)
    (room : pagesFor (rowLengthOf w d * h) ≤ st.freePages.length) : (newImage st w h d).Legal where
  shape := shape
  row := rfl
  size := rfl
  pages := List.length_take_of_le room
  loading _ := shape_size_pos shape
  complete unfinished := absurd rfl unfinished

/-- An image loaded no further than its size is READY exactly at it. -/
theorem Image.Legal.advance (legal : im.Legal) {n : Nat} (room : im.cursor + n ≤ im.size) : (im.advance n).Legal where
  shape := legal.shape
  row := legal.row
  size := legal.size
  pages := legal.pages
  loading phase := by
    change (if im.cursor + n = im.size then ImagePhase.ready else .loading) = .loading at phase
    split at phase
    · cases phase
    · exact Nat.lt_of_le_of_ne room ‹_›
  complete phase := by
    change (if im.cursor + n = im.size then ImagePhase.ready else .loading) ≠ .loading at phase
    by_contra short
    exact phase (if_neg short)

theorem Image.Legal.restarted (legal : im.Legal) : im.restarted.Legal where
  shape := legal.shape
  row := legal.row
  size := legal.size
  pages := legal.pages
  loading _ := by
    change 0 < im.size
    rw [legal.size, legal.row]
    exact shape_size_pos legal.shape
  complete unfinished := absurd rfl unfinished

/-- A complete image may be READY or RETIRING. -/
theorem Image.Legal.setPhase (legal : im.Legal) {phase : ImagePhase} (before : im.phase ≠ .loading)
    (after : phase ≠ .loading) : Image.Legal { im with phase } where
  shape := legal.shape
  row := legal.row
  size := legal.size
  pages := legal.pages
  loading phase := absurd phase after
  complete _ := legal.complete before

end

/-- The image of an entry, where it has one, is legal. -/
def ImageEntry.Legal (e : ImageEntry) : Prop := ∀ im, e.image = some im → im.Legal

theorem entriesLegal_iff (st : ImageStore) : st.EntriesLegal ↔ ∀ h, (st.entry h).Legal := Iff.rfl

theorem free_legal : ImageEntry.free.Legal := fun _ him => by cases him

section
variable {e : ImageEntry}

theorem ImageEntry.Legal.afterApply (legal : e.Legal) : e.afterApply.Legal := by
  unfold ImageEntry.afterApply
  split
  · exact free_legal
  · exact legal

theorem ImageEntry.Legal.afterDiscard (legal : e.Legal) : e.afterDiscard.Legal := by
  intro im' him'
  obtain ⟨im, him, rfl⟩ := Option.map_eq_some_iff.mp him'
  split
  · next retiring => exact (legal im him).setPhase (by simp [retiring]) (by simp)
  · exact legal im him

theorem ImageEntry.Legal.afterClear (legal : e.Legal) : e.afterClear.Legal := by
  unfold ImageEntry.afterClear
  split
  · exact free_legal
  · split
    · next retired =>
      intro im' him'
      obtain ⟨im, him, rfl⟩ := Option.map_eq_some_iff.mp him'
      have ready : im.phase = .ready := by
        simp only [ImageEntry.retiredByClear, him, Bool.and_eq_true, decide_eq_true_eq] at retired
        exact retired.1
      exact (legal im him).setPhase (by simp [ready]) (by simp)
    · exact legal

end

/-- Entries changed one by one stay legal where the change keeps a legal entry so. -/
theorem entriesLegal_map {st st' : ImageStore} {f : ImageEntry → ImageEntry} (entries : ∀ h, st'.entry h = f (st.entry h))
    (keeps : ∀ {e}, e.Legal → (f e).Legal) (legal : st.EntriesLegal) : st'.EntriesLegal := by
  rw [entriesLegal_iff] at legal ⊢
  intro h
  rw [entries]
  exact keeps (legal h)

theorem entriesLegal_setImage {st : ImageStore} (legal : st.EntriesLegal) {h : Nat} (handle : h < 128) {im : Image}
    (new : im.Legal) : (st.setImage h im).EntriesLegal := by
  intro k im' him
  rw [ImageStore.imageAt, entry_setImage st handle] at him
  split at him
  · exact Option.some.inj him ▸ new
  · exact legal k im' him

/-- No command but a hard reset's end makes an entry inconsistent. -/
theorem StoreEffect.entriesLegal {st st' : ImageStore} (effect : StoreEffect st st') (legal : st.EntriesLegal) :
    st'.EntriesLegal := by
  cases effect with
  | same => exact legal
  | counts old new => exact fun h im him => legal h im (imageAt_moveRef st old new h ▸ him)
  | apply => exact entriesLegal_map (entry_applyCounts st) ImageEntry.Legal.afterApply legal
  | discard => exact entriesLegal_map (entry_discardCounts st) ImageEntry.Legal.afterDiscard legal
  | clear => exact entriesLegal_map (entry_clearCounts st) ImageEntry.Legal.afterClear legal
  | clearNow =>
    exact entriesLegal_map (entry_applyCounts _) ImageEntry.Legal.afterApply
      (entriesLegal_map (entry_clearCounts st) ImageEntry.Legal.afterClear legal)
  | create h w ht d handle free shape room =>
    exact entriesLegal_setImage (st := { st with freePages := _ }) legal handle (newImage_legal shape room)
  | load h im bytes handle found loading room =>
    exact entriesLegal_setImage (st := { st with memory := _ }) legal handle ((legal h im found).advance room)
  | restart h im handle found => exact entriesLegal_setImage legal handle (legal h im found).restarted
  | retire h im handle found ready =>
    exact entriesLegal_setImage legal handle ((legal h im found).setPhase (by simp [ready]) (by simp))
  | release h handle =>
    intro k im him
    rw [ImageStore.imageAt, entry_freeImage st h k handle] at him
    split at him
    · cases him
    · exact legal k im him

/-! ### The bytes (R67, R72) -/

/-- The bytes stand, or LOAD_IMAGE wrote some of a LOADING image. -/
theorem StoreEffect.memory {st st' : ImageStore} (effect : StoreEffect st st') :
    st'.memory = st.memory ∨ ∃ h im bytes, st.imageAt h = some im ∧ im.phase = .loading ∧
      st'.memory = writeImageBytes st.memory im.pageMap im.cursor bytes := by
  cases effect with
  | counts old new => exact .inl (moveRef_memory st old new)
  | load h im bytes _ found loading => exact .inr ⟨h, im, bytes, found, loading, rfl⟩
  | _ => exact .inl rfl

theorem StoreEffect.memory_wf {st st' : ImageStore} (effect : StoreEffect st st') (wf : Memory.wf st.memory = true) :
    Memory.wf st'.memory = true := by
  rcases effect.memory with stands | ⟨h, im, bytes, -, -, written⟩
  · rwa [stands]
  · exact written ▸ wf_writeImageBytes wf _ _ _

/-- A byte stands, or lies in a page of a LOADING image. -/
theorem StoreEffect.read {st st' : ImageStore} (effect : StoreEffect st st') (a : Nat) :
    Memory.read st'.memory a = Memory.read st.memory a ∨
      ∃ h im page, st.imageAt h = some im ∧ im.phase = .loading ∧ page ∈ im.pageMap ∧ a / Config.pageBytes = page.val := by
  rcases effect.memory with stands | ⟨h, im, bytes, found, loading, written⟩
  · exact .inl (by rw [stands])
  · by_cases hit : ∃ n, imageAddress im.pageMap n = some a
    · obtain ⟨n, hn⟩ := hit
      obtain ⟨page, mem, place⟩ := imageAddress_page hn
      exact .inr ⟨h, im, page, found, loading, mem, place⟩
    · exact .inl (written ▸ read_writeImageBytes_other _ _ _ _ _ fun k _ hk => hit ⟨_, hk⟩)

/-- With every page in one place, the bytes of an image that is not LOADING stand. -/
theorem StoreEffect.imageByte {st st' : ImageStore} (effect : StoreEffect st st') (law : st.PageLaw) {h : Nat} {im : Image}
    (found : st.imageAt h = some im) (phase : im.phase ≠ .loading) (n : Nat) :
    imageByte st'.memory im.pageMap n = imageByte st.memory im.pageMap n := by
  unfold Machine.imageByte
  cases ha : imageAddress im.pageMap n with
  | none => rfl
  | some a =>
    refine (effect.read a).resolve_right ?_
    rintro ⟨k, im', page', found', loading, mem', place'⟩
    obtain ⟨page, mem, place⟩ := imageAddress_page ha
    obtain rfl : page = page' := Fin.ext (place.symm.trans place')
    obtain rfl := law.same_handle found found' mem mem'
    rw [found] at found'
    exact phase (Option.some.inj found' ▸ loading)

end Sys2Proof.Machine

namespace Sys2Proof.Images

open Sys2Proof.Machine

/-- Settles O8: each of the three laws holds of the store after reset, and each effect a command can have on the store keeps it. -/
theorem stepKeepsImageStoreLegal : Obligations.StepKeepsImageStoreLegal :=
  ⟨fun _ _ => step_keeps_images ImageStore.PageLaw images_reset_pageLaw fun effect law p => (effect.pageUses p).trans (law p),
    fun _ _ => step_keeps_images ImageStore.EntriesLegal images_reset_legal.2.1 StoreEffect.entriesLegal,
    fun _ _ => step_keeps_images (fun st => Memory.wf st.memory = true) reset_memory.1 StoreEffect.memory_wf⟩

/-- Settles O17: LOAD_IMAGE alone writes bytes, and a page of a LOADING image is no other image's. -/
theorem imageBytesStandOutsideLoading : Obligations.ImageBytesStandOutsideLoading :=
  ⟨fun _ _ _ a hc h => (exec_images h hc).read a,
    fun _ _ _ _ n _ law hc h found phase => (exec_images h hc).imageByte law found phase n⟩

end Sys2Proof.Images
end

section
/-! The commands of the image store, check by check (R74 to R81): one lemma for each answer a command can give. -/

namespace Sys2Proof.Machine

/-- An accepted command whose block changes the image store alone: the new store beside the acceptance. -/
theorem exec_newStore {s : State} {i : Instr} {seq code : Byte} {p d : List Byte} {st : Status} {store : ImageStore}
    (hc : carried i = some (.unicast, seq, code, p)) (he : s.Expects seq)
    (hr : dispatch code p (s.opened seq) = ⟨{ s.opened seq with images := store }, st, d⟩) :
    exec i s = .next { s.accepted ⟨seq, code, st, d⟩ with images := store } :=
  exec_newTables hc he hr rfl

section
variable {s : State} {p : List Byte}

/-! ### CREATE_IMAGE (R74, R75) -/

theorem commandCreateImage_handle (outside : ¬byteAt p 0 < 128) : commandCreateImage p s = ⟨s, .range, []⟩ := by
  simp [commandCreateImage, outside, refuse]

theorem commandCreateImage_inUse (handle : byteAt p 0 < 128) (used : s.images.imageAt (byteAt p 0) ≠ none) :
    commandCreateImage p s = ⟨s, .inUse, [u8 (byteAt p 0), (s.images.entry (byteAt p 0)).stateCode]⟩ := by
  have used' : (s.images.entry (byteAt p 0)).image.isSome = true := Option.isSome_iff_ne_none.mpr used
  simp [commandCreateImage, handle, used', refuse]

theorem commandCreateImage_shape (handle : byteAt p 0 < 128) (free : s.images.imageAt (byteAt p 0) = none)
    (shape : ¬imageShapeInRange (u16At p 1) (u16At p 3) (byteAt p 5) = true) :
    commandCreateImage p s = ⟨s, .range, []⟩ := by
  rw [ImageStore.imageAt] at free
  simp [commandCreateImage, handle, free, shape, refuse]

theorem commandCreateImage_noSpace {pages : Nat} (handle : byteAt p 0 < 128) (free : s.images.imageAt (byteAt p 0) = none)
    (shape : imageShapeInRange (u16At p 1) (u16At p 3) (byteAt p 5) = true)
    (needed : pagesFor (rowLengthOf (u16At p 1) (byteAt p 5) * u16At p 3) = pages)
    (short : s.images.freePages.length < pages) :
    commandCreateImage p s = ⟨s, .noSpace, be16 pages ++ be16 s.images.freePages.length⟩ := by
  rw [ImageStore.imageAt] at free
  simp [commandCreateImage, handle, free, shape, needed, ImageStore.freeCount, short, refuse]

theorem commandCreateImage_ok {pages : Nat} (handle : byteAt p 0 < 128) (free : s.images.imageAt (byteAt p 0) = none)
    (shape : imageShapeInRange (u16At p 1) (u16At p 3) (byteAt p 5) = true)
    (needed : pagesFor (rowLengthOf (u16At p 1) (byteAt p 5) * u16At p 3) = pages)
    (room : pages ≤ s.images.freePages.length) :
    commandCreateImage p s =
      ⟨{ s with images := s.images.created (byteAt p 0) (u16At p 1) (u16At p 3) (byteAt p 5) }, .ok,
        [u8 (byteAt p 0)] ++ be32 (rowLengthOf (u16At p 1) (byteAt p 5) * u16At p 3) ++ be16 pages ++
          be16 (s.images.freePages.length - pages)⟩ := by
  subst needed
  rw [ImageStore.imageAt] at free
  simp only [commandCreateImage, handle, decide_true, Bool.not_true, Bool.false_eq_true, if_false, free, Option.isSome_none,
    shape, ImageStore.freeCount, if_neg (Nat.not_lt.mpr room), setEntry_freePages, List.length_drop]
  rfl

/-! ### LOAD_IMAGE (R76, R77) -/

theorem loadData_free {st : ImageStore} {h : Nat} (free : st.imageAt h = none) : loadData st h = [u8 h] ++ be32 0 ++ [0] := by
  rw [ImageStore.imageAt] at free
  simp [loadData, ImageEntry.stateCode, free]

theorem loadData_found {st : ImageStore} {h : Nat} {im : Image} (found : st.imageAt h = some im) :
    loadData st h = [u8 h] ++ be32 im.cursor ++ [im.phase.code] := by
  have handle := imageAt_lt found
  rw [ImageStore.imageAt] at found
  simp [loadData, ImageEntry.stateCode, found, handle]

/-- The state LOAD_IMAGE reports: READY where the cursor has reached the size. -/
theorem advance_code (im : Image) (n : Nat) : (im.advance n).phase.code = if im.cursor + n = im.size then 2 else 1 := by
  simp only [Image.advance]
  split <;> rfl

/-- A byte below the size of a legal image has an address. -/
theorem imageAddress_of_lt {im : Image} (legal : im.Legal) {n : Nat} (inside : n < im.size) :
    ∃ a, imageAddress im.pageMap n = some a := by
  have page : n / Config.pageBytes < im.pageMap.length := by
    simp only [legal.pages, pagesFor, ceilDiv, Config.pageBytes]
    omega
  exact ⟨_, by rw [imageAddress, List.getElem?_eq_getElem page, Option.map_some]⟩

/-- With every page of an image in one place, each byte loaded reads back at its number (R77). -/
theorem imageByte_loaded {m : Memory} (wf : Memory.wf m = true) {im : Image} (legal : im.Legal) (pages : im.pageMap.Nodup)
    {bytes : List Byte} (room : im.cursor + bytes.length ≤ im.size) {k : Nat} {v : Byte} (hv : bytes[k]? = some v) :
    imageByte (writeImageBytes m im.pageMap im.cursor bytes) im.pageMap (im.cursor + k) = v := by
  have short := (List.getElem?_eq_some_iff.mp hv).1
  obtain ⟨a, ha⟩ := imageAddress_of_lt legal (n := im.cursor + k) (by omega)
  rw [imageByte, ha]
  exact read_writeImageBytes wf pages hv ha

theorem commandLoadImage_handle (outside : ¬byteAt p 0 < 128) :
    commandLoadImage p s = ⟨s, .range, [u8 (byteAt p 0)] ++ be32 0 ++ [0]⟩ := by
  simp [commandLoadImage, outside, refuse, loadData]

theorem commandLoadImage_free (handle : byteAt p 0 < 128) (free : s.images.imageAt (byteAt p 0) = none) :
    commandLoadImage p s = ⟨s, .notReady, [u8 (byteAt p 0)] ++ be32 0 ++ [0]⟩ := by
  rw [← loadData_free free]
  rw [ImageStore.imageAt] at free
  simp [commandLoadImage, handle, free, refuse]

section
variable {im : Image} (found : s.images.imageAt (byteAt p 0) = some im)
include found

theorem commandLoadImage_notReady (phase : im.phase ≠ .loading) :
    commandLoadImage p s = ⟨s, .notReady, [u8 (byteAt p 0)] ++ be32 im.cursor ++ [im.phase.code]⟩ := by
  rw [← loadData_found found]
  have handle := imageAt_lt found
  rw [ImageStore.imageAt] at found
  simp [commandLoadImage, handle, found, phase, refuse]

theorem commandLoadImage_offset (phase : im.phase = .loading) (elsewhere : u16At p 1 ≠ im.cursor) :
    commandLoadImage p s = ⟨s, .offset, [u8 (byteAt p 0)] ++ be32 im.cursor ++ [1]⟩ := by
  have data := loadData_found found
  rw [phase] at data
  have handle := imageAt_lt found
  rw [ImageStore.imageAt] at found
  simp [commandLoadImage, handle, found, phase, elsewhere, refuse, data, ImagePhase.code]

theorem commandLoadImage_range (phase : im.phase = .loading) (offset : u16At p 1 = im.cursor)
    (past : im.size < im.cursor + (p.drop 3).length) :
    commandLoadImage p s = ⟨s, .range, [u8 (byteAt p 0)] ++ be32 im.cursor ++ [1]⟩ := by
  have data := loadData_found found
  rw [phase] at data
  have handle := imageAt_lt found
  rw [ImageStore.imageAt] at found
  simp [commandLoadImage, handle, found, phase, offset, past, refuse, data, ImagePhase.code, -List.length_drop]

theorem commandLoadImage_ok (phase : im.phase = .loading) (offset : u16At p 1 = im.cursor)
    (room : im.cursor + (p.drop 3).length ≤ im.size) :
    commandLoadImage p s =
      ⟨{ s with images := s.images.loaded (byteAt p 0) im (p.drop 3) }, .ok,
        [u8 (byteAt p 0)] ++ be32 (im.cursor + (p.drop 3).length) ++ [(im.advance (p.drop 3).length).phase.code]⟩ := by
  have handle := imageAt_lt found
  have after : (s.images.loaded (byteAt p 0) im (p.drop 3)).imageAt (byteAt p 0) = some (im.advance (p.drop 3).length) :=
    congrArg ImageEntry.image ((entry_setImage _ handle _ _).trans (if_pos rfl))
  have data := loadData_found after
  rw [ImageStore.imageAt] at found
  simp only [commandLoadImage, handle, decide_true, Bool.not_true, Bool.false_eq_true, if_false, found, phase, offset,
    ne_eq, not_true, if_neg (Nat.not_lt.mpr room)]
  exact congrArg (Answer.mk _ _) data

end

/-! ### RESTART_IMAGE (R79) -/

theorem commandRestartImage_handle (outside : ¬byteAt p 0 < 128) : commandRestartImage p s = ⟨s, .range, []⟩ := by
  simp [commandRestartImage, outside, refuse]

section
variable (handle : byteAt p 0 < 128)
include handle

theorem commandRestartImage_inDisplay (drawn : 0 < (s.images.entry (byteAt p 0)).activeRefs) :
    commandRestartImage p s = ⟨s, .inDisplay, []⟩ := by
  simp [commandRestartImage, handle, drawn, refuse]

theorem commandRestartImage_inUse (undrawn : (s.images.entry (byteAt p 0)).activeRefs = 0)
    (staged : 0 < (s.images.entry (byteAt p 0)).stagedRefs) : commandRestartImage p s = ⟨s, .inUse, []⟩ := by
  simp [commandRestartImage, handle, undrawn, staged, refuse]

theorem commandRestartImage_notReady (undrawn : (s.images.entry (byteAt p 0)).activeRefs = 0)
    (unstaged : (s.images.entry (byteAt p 0)).stagedRefs = 0)
    (unready : ∀ im, s.images.imageAt (byteAt p 0) = some im → im.phase ≠ .ready) :
    commandRestartImage p s = ⟨s, .notReady, []⟩ := by
  simp only [ImageStore.imageAt] at unready
  cases him : (s.images.entry (byteAt p 0)).image with
  | none => simp [commandRestartImage, handle, undrawn, unstaged, him, refuse]
  | some im => simp [commandRestartImage, handle, undrawn, unstaged, him, unready im him, refuse]

theorem commandRestartImage_ok {im : Image} (undrawn : (s.images.entry (byteAt p 0)).activeRefs = 0)
    (unstaged : (s.images.entry (byteAt p 0)).stagedRefs = 0) (found : s.images.imageAt (byteAt p 0) = some im)
    (ready : im.phase = .ready) :
    commandRestartImage p s = ⟨{ s with images := s.images.setImage (byteAt p 0) im.restarted }, .ok,
      [u8 (byteAt p 0)] ++ be32 im.size ++ be32 0 ++ [1]⟩ := by
  have noActive := Nat.not_lt.mpr undrawn.le
  have noStaged := Nat.not_lt.mpr unstaged.le
  rw [ImageStore.imageAt] at found
  simp [commandRestartImage, handle, noActive, noStaged, found, ready, ImageStore.setImage, Image.restarted, ImagePhase.code]

end

/-! ### RELEASE_IMAGE (R80, R81) -/

theorem commandReleaseImage_handle (outside : ¬byteAt p 0 < 128) : commandReleaseImage p s = ⟨s, .range, []⟩ := by
  simp [commandReleaseImage, outside, refuse]

section
variable (handle : byteAt p 0 < 128)
include handle

theorem commandReleaseImage_inUse (staged : 0 < (s.images.entry (byteAt p 0)).stagedRefs) :
    commandReleaseImage p s =
      ⟨s, .inUse, [u8 (byteAt p 0), u8 (s.images.entry (byteAt p 0)).stagedRefs]⟩ := by
  simp [commandReleaseImage, handle, staged, refuse]

variable (unstaged : (s.images.entry (byteAt p 0)).stagedRefs = 0)
include unstaged

theorem commandReleaseImage_notReady (gone : ∀ im, s.images.imageAt (byteAt p 0) = some im → im.phase = .retiring) :
    commandReleaseImage p s = ⟨s, .notReady, []⟩ := by
  simp only [ImageStore.imageAt] at gone
  cases him : (s.images.entry (byteAt p 0)).image with
  | none => simp [commandReleaseImage, handle, unstaged, him, refuse]
  | some im => simp [commandReleaseImage, handle, unstaged, him, gone im him, refuse]

theorem commandReleaseImage_retire {im : Image} (found : s.images.imageAt (byteAt p 0) = some im) (ready : im.phase = .ready)
    (drawn : 0 < (s.images.entry (byteAt p 0)).activeRefs) :
    commandReleaseImage p s =
      ⟨{ s with images := s.images.setImage (byteAt p 0) { im with phase := .retiring } }, .ok,
        [u8 (byteAt p 0), 3] ++ be16 s.images.freePages.length⟩ := by
  have code : ((s.images.setImage (byteAt p 0) { im with phase := .retiring }).entry (byteAt p 0)).stateCode = 3 := by
    rw [entry_setImage _ handle, if_pos rfl]
    rfl
  have noStaged := Nat.not_lt.mpr unstaged.le
  rw [← code]
  rw [ImageStore.imageAt] at found
  simp [commandReleaseImage, handle, noStaged, found, ready, drawn, ImageStore.setImage, ImageStore.freeCount]

theorem commandReleaseImage_free {im : Image} (found : s.images.imageAt (byteAt p 0) = some im)
    (phase : im.phase = .ready ∨ im.phase = .loading) (undrawn : (s.images.entry (byteAt p 0)).activeRefs = 0) :
    commandReleaseImage p s =
      ⟨{ s with images := s.images.freeImage (byteAt p 0) }, .ok,
        [u8 (byteAt p 0), 0] ++ be16 (s.images.freePages.length + im.pageMap.length)⟩ := by
  have code : ((s.images.freeImage (byteAt p 0)).entry (byteAt p 0)).stateCode = 0 := by
    rw [entry_freeImage _ _ _ handle, if_pos rfl]
    rfl
  have count : (s.images.freeImage (byteAt p 0)).freeCount = s.images.freePages.length + im.pageMap.length := by
    rw [ImageStore.freeCount, freeImage_freePages, pages_of_imageAt found, List.length_append]
  have stays : im.phase ≠ .retiring := by rcases phase with h | h <;> simp [h]
  rw [← code, ← count]
  rw [ImageStore.imageAt] at found
  simp [commandReleaseImage, handle, unstaged, found, stays, undrawn]

end

end

end Sys2Proof.Machine

namespace Sys2Proof.Images

open Sys2Proof.Machine

/-- Settles O41, answer by answer. -/
theorem createImageTakesPagesFromTheHead : Obligations.CreateImageTakesPagesFromTheHead := by
  unfold Obligations.CreateImageTakesPagesFromTheHead
  intro s seq p he hl h width height depth rowLength size pages inRange refusal
  have run := dispatch_createImage (s.opened seq) (p := p) (beq_iff_eq.mpr hl)
  have shape : imageShapeInRange width height depth = true ↔ inRange := imageShapeInRange_iff width height depth
  have needed : pagesFor (rowLengthOf width depth * height) = pages := rfl
  have refused : ∀ {st d}, commandCreateImage p (s.opened seq) = ⟨s.opened seq, st, d⟩ → refusal st d := fun h =>
    exec_answered rfl he (run.trans h)
  refine ⟨fun hh free hr room => ?_, fun hh => refused (commandCreateImage_handle (Nat.not_lt.mpr hh)),
    fun hh used => refused (commandCreateImage_inUse hh used),
    fun hh free hr => refused (commandCreateImage_shape hh free (shape.not.mpr hr)),
    fun hh free hr short => refused (commandCreateImage_noSpace hh free (shape.mpr hr) needed short)⟩
  have ok := commandCreateImage_ok (s := s.opened seq) hh free (shape.mpr hr) needed room
  exact ⟨_, exec_newStore rfl he (run.trans ok), fun k _ => entry_setImage _ hh _ k, rfl⟩

/-- Settles O42, answer by answer: with every page in one place the bytes written stand at different addresses, so that each reads
back. -/
theorem loadImageWritesAtTheCursor : Obligations.LoadImageWritesAtTheCursor := by
  unfold Obligations.LoadImageWritesAtTheCursor
  intro s seq b offset bytes he ho h1 h240 h c data refusal
  have payload : ∃ p, b :: (be16 offset ++ bytes) = p ∧ byteAt p 0 = b.toNat ∧ u16At p 1 = offset ∧ p.drop 3 = bytes ∧
      p.length = bytes.length + 3 := ⟨_, rfl, rfl, be16_value ho, rfl, rfl⟩
  obtain ⟨p, hp, name, number, body, length⟩ := payload
  have row : carried c = some (.unicast, seq, codeLoadImage, p) := hp ▸ rfl
  have fits : lengthFits codeLoadImage p = true := by
    change (decide (4 ≤ p.length) && decide (p.length ≤ 243)) = true
    rw [length, Bool.and_eq_true, decide_eq_true_iff, decide_eq_true_iff]
    omega
  have run := dispatch_loadImage (s.opened seq) fits
  have refused : ∀ {st cursor state}, commandLoadImage p (s.opened seq) =
      ⟨s.opened seq, st, [u8 (byteAt p 0)] ++ be32 cursor ++ [state]⟩ → refusal st (data cursor state) := by
    intro st cursor state answer
    rw [name, u8_toNat] at answer
    exact exec_answered row he (run.trans answer)
  refine ⟨fun im hh found loading cursor room legal => ?_, fun hh => refused (commandLoadImage_handle ?_),
    fun hh free => refused (commandLoadImage_free (name ▸ hh) (name ▸ free)), fun im hh found => ?_⟩
  · subst cursor
    obtain ⟨law, entries, wf⟩ := legal
    have ok := commandLoadImage_ok (s := s.opened seq) (p := p) (im := im) (name ▸ found) loading number (body ▸ room)
    rw [name, u8_toNat, body, advance_code] at ok
    exact ⟨_, exec_newStore row he (run.trans ok),
      fun k v hv => imageByte_loaded wf (entries h im found) (law.nodup found) room hv,
      fun a away => read_writeImageBytes_other _ _ _ _ _ away, fun k _ => entry_setImage _ hh _ k, rfl⟩
  · exact name ▸ Nat.not_lt.mpr hh
  · have found' : (s.opened seq).images.imageAt (byteAt p 0) = some im := name ▸ found
    refine ⟨fun phase => refused (commandLoadImage_notReady found' phase),
      fun loading away => refused (commandLoadImage_offset found' loading (number ▸ away)),
      fun loading cursor past => refused (commandLoadImage_range found' loading (number.trans cursor) ?_)⟩
    rwa [body, ← cursor]

/-- Settles O43, answer by answer. -/
theorem restartImageReturnsToLoading : Obligations.RestartImageReturnsToLoading := by
  unfold Obligations.RestartImageReturnsToLoading
  intro s seq p he h e refusal
  refine ⟨fun hl => ?_, fun hl => ?_⟩
  · have misfit : lengthFits codeRestartImage p = false := beq_eq_false_iff_ne.mpr hl
    exact exec_answered rfl he (dispatch_length (by decide) misfit _)
  have run := dispatch_restartImage (s.opened seq) (p := p) (beq_iff_eq.mpr hl)
  have refused : ∀ {st}, commandRestartImage p (s.opened seq) = ⟨s.opened seq, st, []⟩ → refusal st := fun h =>
    exec_answered rfl he (run.trans h)
  refine ⟨fun hh => refused (commandRestartImage_handle (Nat.not_lt.mpr hh)),
    fun hh drawn => refused (commandRestartImage_inDisplay hh drawn),
    fun hh undrawn staged => refused (commandRestartImage_inUse hh undrawn staged),
    fun hh undrawn unstaged unready => refused (commandRestartImage_notReady hh undrawn unstaged unready),
    fun im hh undrawn unstaged found ready => ?_⟩
  have ok := commandRestartImage_ok (s := s.opened seq) hh undrawn unstaged found ready
  exact ⟨_, exec_newStore rfl he (run.trans ok), fun k _ => entry_setImage _ hh _ k, rfl⟩

/-- Settles O44, answer by answer. -/
theorem releaseImageRetiresOrFrees : Obligations.ReleaseImageRetiresOrFrees := by
  unfold Obligations.ReleaseImageRetiresOrFrees
  intro s seq b he h e refusal
  have run := dispatch_releaseImage (s.opened seq) (p := [b]) rfl
  have name : u8 (byteAt [b] 0) = b := u8_toNat b
  have refused : ∀ {st d}, commandReleaseImage [b] (s.opened seq) = ⟨s.opened seq, st, d⟩ → refusal st d := fun h =>
    exec_answered rfl he (run.trans h)
  refine ⟨fun im hh unstaged found ready drawn => ?_, fun im hh unstaged found phase undrawn => ?_,
    fun hh => refused (commandReleaseImage_handle (Nat.not_lt.mpr hh)), fun hh staged => ?_,
    fun hh unstaged gone => refused (commandReleaseImage_notReady hh unstaged gone)⟩
  · have ok := commandReleaseImage_retire (s := s.opened seq) (p := [b]) hh unstaged found ready drawn
    rw [name] at ok
    exact ⟨_, exec_newStore rfl he (run.trans ok), fun k _ => entry_setImage _ hh _ k, rfl⟩
  · have ok := commandReleaseImage_free (s := s.opened seq) (p := [b]) hh unstaged found phase undrawn
    rw [name] at ok
    refine ⟨_, exec_newStore rfl he (run.trans ok), fun k _ => entry_freeImage _ _ k hh, ?_⟩
    have joined : (s.images.freeImage h).freePages = s.images.freePages ++ im.pageMap := by
      rw [freeImage_freePages, pages_of_imageAt found]
    rw [← joined]
    rfl
  · have inUse := commandReleaseImage_inUse (s := s.opened seq) (p := [b]) hh staged
    rw [name] at inUse
    exact refused inUse

end Sys2Proof.Images
end

section
/-! WRITE_PALETTE, check by check (R90 to R92), and what an accepted run of entries makes of the pending palette write list. -/

namespace Sys2Proof.Machine

/-- Entry `k` field by field: three components of two bytes each, then the alpha (R90). -/
theorem paletteEntryAt_eq (p : List Byte) (k : Nat) : paletteEntryAt p k =
    ⟨⟨u16At p (2 + 7 * k), u16At p (4 + 7 * k), u16At p (6 + 7 * k)⟩, byteAt p (8 + 7 * k)⟩ := by
  rw [paletteEntryAt, colourAt, Nat.add_right_comm 2 (7 * k) 2, Nat.add_right_comm 2 (7 * k) 4]

/-- The range check says what R90 says: a palette that exists, a run that ends by entry 255, and every entry in range. -/
theorem paletteWriteInRange_iff (p : List Byte) : paletteWriteInRange p = true ↔
    byteAt p 0 < 8 ∧ byteAt p 1 + paletteRun p - 1 ≤ 255 ∧ ∀ k, k < paletteRun p → (paletteEntryAt p k).InRange := by
  simp only [paletteWriteInRange, Bool.and_eq_true, decide_eq_true_eq, List.all_eq_true, List.mem_range, colourInRange_iff,
    PaletteEntry.InRange, and_assoc]

/-! ### The run's writes and the list as it stands (R91) -/

theorem mem_paletteWrites {p : List Byte} {w : PaletteWrite} :
    w ∈ paletteWrites p ↔ ∃ k, k < paletteRun p ∧ w = ⟨byteAt p 0, byteAt p 1 + k, paletteEntryAt p k⟩ := by
  simp only [paletteWrites, List.mem_map, List.mem_range, eq_comm]

theorem length_paletteWrites (p : List Byte) : (paletteWrites p).length = paletteRun p := by simp [paletteWrites]

/-- The entries of the run, by their place in it, whose pair has no write in the list. -/
def newPlaces (p : List Byte) (l : List PaletteWrite) : List Nat :=
  (List.range (paletteRun p)).filter fun k => l.all fun w => !(w.palette == byteAt p 0 && w.index == byteAt p 1 + k)

/-- The run's writes to pairs that are not pending are those of the new places, in index order. -/
theorem paletteWrites_notPending (p : List Byte) (l : List PaletteWrite) :
    ((paletteWrites p).filter fun w => !isPending l w) =
      (newPlaces p l).map fun k => ⟨byteAt p 0, byteAt p 1 + k, paletteEntryAt p k⟩ := by
  simp only [paletteWrites, List.filter_map, newPlaces, Function.comp_def, isPending, PaletteWrite.isFor, List.not_any_eq_all_not]

theorem addedCount_paletteWrites (p : List Byte) (l : List PaletteWrite) :
    addedCount l (paletteWrites p) = (newPlaces p l).length := by
  rw [addedCount, List.countP_eq_length_filter, paletteWrites_notPending, List.length_map]

/-- The pairs pending after the run: those that were, each at its place, then the new ones. -/
theorem keys_foldl_paletteWrites (p : List Byte) (l : List PaletteWrite) :
    ((paletteWrites p).foldl putWrite l).map (fun w => (w.palette, w.index)) =
      l.map (fun w => (w.palette, w.index)) ++ (newPlaces p l).map fun k => (byteAt p 0, byteAt p 1 + k) := by
  rw [keys_foldl _ l (paletteWrites_nodup p), paletteWrites_notPending, List.map_map]
  rfl

theorem length_foldl_paletteWrites (p : List Byte) (l : List PaletteWrite) :
    ((paletteWrites p).foldl putWrite l).length = l.length + (newPlaces p l).length := by
  rw [length_foldl _ l (paletteWrites_nodup p), addedCount_paletteWrites]

/-- A write pending after the run is one of the run's, or one that stood and whose pair the run does not write. -/
theorem mem_foldl_paletteWrites {p : List Byte} {l : List PaletteWrite} {w : PaletteWrite}
    (h : w ∈ (paletteWrites p).foldl putWrite l) :
    (∃ k, k < paletteRun p ∧ w = ⟨byteAt p 0, byteAt p 1 + k, paletteEntryAt p k⟩) ∨
      (w ∈ l ∧ ∀ k, k < paletteRun p → ¬(w.palette = byteAt p 0 ∧ w.index = byteAt p 1 + k)) :=
  (mem_foldl h).imp mem_paletteWrites.mp fun ⟨stood, other⟩ =>
    ⟨stood, fun k hk => other _ (mem_paletteWrites.mpr ⟨k, hk, rfl⟩)⟩

/-! ### The command's answers, ARMED apart -/

/-- The run of `p` taken into the pending list, and staged-dirty set (R91). -/
def putPaletteWrites (p : List Byte) (s : State) : State :=
  { s with
    palettes := { s.palettes with writes := (paletteWrites p).foldl putWrite s.palettes.writes }
    generations := { s.generations with stagedDirty := true } }

section
variable {s : State} {p : List Byte} (idle : s.generations.commit.isArmed = false)
include idle

theorem commandWritePalette_range (range : ¬paletteWriteInRange p = true) :
    commandWritePalette p s = ⟨s, .range, writePaletteData p s.palettes.writes.length 0 0⟩ := by
  simp [commandWritePalette, idle, range, refuse]

theorem commandWritePalette_full (range : paletteWriteInRange p = true)
    (full : 256 < s.palettes.writes.length + (newPlaces p s.palettes.writes).length) :
    commandWritePalette p s =
      ⟨s, .full, writePaletteData p s.palettes.writes.length (newPlaces p s.palettes.writes).length 0⟩ := by
  simp [commandWritePalette, idle, range, addedCount_paletteWrites, Config.pendingWrites, full, refuse]

theorem commandWritePalette_ok (range : paletteWriteInRange p = true)
    (room : s.palettes.writes.length + (newPlaces p s.palettes.writes).length ≤ 256) :
    commandWritePalette p s = ⟨putPaletteWrites p s, .ok,
      writePaletteData p (s.palettes.writes.length + (newPlaces p s.palettes.writes).length)
        (newPlaces p s.palettes.writes).length (paletteRun p - (newPlaces p s.palettes.writes).length)⟩ := by
  simp [commandWritePalette, idle, range, addedCount_paletteWrites, Config.pendingWrites, Nat.not_lt.mpr room,
    length_foldl_paletteWrites, length_paletteWrites, putPaletteWrites]

end

end Sys2Proof.Machine

namespace Sys2Proof.Palettes

open Sys2Proof.Machine

/-- Settles O45, answer by answer: the entries of one run are for different pairs, so each meets the list as the command found it. -/
theorem writePaletteJoinsThePendingList : Obligations.WritePaletteJoinsThePendingList := by
  unfold Obligations.WritePaletteJoinsThePendingList
  intro s seq p he fits _ palette first n entry inRange l fresh data refusal
  have run := dispatch_writePalette (s.opened seq) fits
  have entries : paletteEntryAt p = entry := funext (paletteEntryAt_eq p)
  have range : paletteWriteInRange p = true ↔ inRange := by
    rw [paletteWriteInRange_iff, entries]
    rfl
  have refused : ∀ {st d}, commandWritePalette p (s.opened seq) = ⟨s.opened seq, st, d⟩ → refusal st d := fun h =>
    exec_answered rfl he (run.trans h)
  refine ⟨fun hi hr room => ?_, fun ha => refused (commandWritePalette_armed (s := s.opened seq) (armed_true ha) p),
    fun hi hr => refused (commandWritePalette_range (s := s.opened seq) (armed_false hi) (range.not.mpr hr)),
    fun hi hr full => refused (commandWritePalette_full (s := s.opened seq) (armed_false hi) (range.mpr hr) full)⟩
  have ok := commandWritePalette_ok (s := s.opened seq) (armed_false hi) (range.mpr hr) room
  exact ⟨_, exec_newTables rfl he (run.trans ok) rfl, keys_foldl_paletteWrites p l,
    fun _ hw => entries ▸ mem_foldl_paletteWrites hw, rfl⟩

end Sys2Proof.Palettes
end

section
/-! The ranges and presences of the tracker (R98 to R112) behind each part of its work: the position moved, a frame measured and ended,
a fault recorded, a frame begun, the signal lost. -/

namespace Sys2Proof.Machine

/-! ### The table of R100, one equation a row -/

section
variable {r : Tracker}

theorem move_lineStart (lines : r.linesBegun ≤ 4097) : r.move .lineStart =
    { r with inLine := true, linesBegun := min 4097 (r.linesBegun + 1), pixelsInLine := 0 } := by
  simp only [Tracker.move, satSucc_stop _ lines]

theorem move_pixel (pixels : r.pixelsInLine ≤ 4097) (c : Colour) : r.move (.pixel c) =
    { r with pixelsInLine := if r.inLine = true then min 4097 (r.pixelsInLine + 1) else r.pixelsInLine } := by
  simp only [Tracker.move, satSucc_stop _ pixels]
  split <;> rfl

theorem move_lineEnd (r : Tracker) : r.move .lineEnd = { r with inLine := false } := by
  obtain ⟨_, _, _, _, _, line⟩ := r
  cases line <;> rfl

theorem move_frameEnd (r : Tracker) : r.move .frameEnd =
    { r with inFrame := false, inLine := if r.inFrame = true then false else r.inLine } := by
  obtain ⟨_, _, _, _, frame⟩ := r
  cases frame <;> rfl

end

section
variable {r : Tracker}

theorem locked_absent (h : r.Legal) (searching : r.rasterState = .noSignal ∨ r.rasterState = .acquiring) : r.locked = none := by
  refine Option.not_isSome_iff_eq_none.mp fun present => ?_
  rcases h.lockedPresent.mp present with state | state <;> simp [state] at searching

/-! ### The position -/

/-- Both counts stop at 4097, an open line has been counted, and no symbol but a FRAME_START begins a frame (R98, R100). -/
theorem move_ranges {x : FwdSymbol} (hx : x ≠ .frameStart) (h : r.Legal) :
    (r.move x).linesBegun ≤ 4097 ∧ (r.move x).pixelsInLine ≤ 4097 ∧
      ((r.move x).inLine = true → 1 ≤ (r.move x).linesBegun) ∧ (r.inFrame = false → (r.move x).inFrame = false) := by
  have lines := h.linesStop
  have pixels := h.pixelsStop
  have counted := h.lineBegun
  cases x with
  | frameStart => exact absurd rfl hx
  | lineStart =>
    rw [move_lineStart lines]
    exact ⟨Nat.min_le_left _ _, Nat.zero_le _, fun _ => by simp, id⟩
  | pixel =>
    rw [move_pixel pixels]
    refine ⟨lines, ?_, counted, id⟩
    dsimp only
    split <;> omega
  | lineEnd =>
    rw [move_lineEnd]
    exact ⟨lines, pixels, nofun, id⟩
  | frameEnd =>
    rw [move_frameEnd]
    refine ⟨lines, pixels, fun inside => counted ?_, fun _ => rfl⟩
    dsimp only at inside
    split at inside
    · cases inside
    · exact inside
  | packetStart => exact ⟨lines, pixels, counted, id⟩
  | packetByte => exact ⟨lines, pixels, counted, id⟩
  | packetEnd => exact ⟨lines, pixels, counted, id⟩
  | idle => exact ⟨lines, pixels, counted, id⟩

/-- A symbol that moves the position keeps the laws, given the two that bound the lines of a measured and of a locked frame. -/
theorem move_legal {x : FwdSymbol} (hx : x ≠ .frameStart) (h : r.Legal)
    (regular : r.rasterState = .acquiring → (r.move x).inFrame = true → r.irregular = false → (r.move x).linesBegun ≤ 4096)
    (checked : ∀ g, r.rasterState = .locked → r.locked = some g → (r.move x).linesBegun ≤ g.h) : (r.move x).Legal := by
  obtain ⟨state, candidate, count, locked, mark, irregular, -, fault⟩ := move_frame r x hx
  obtain ⟨lines, pixels, counted, outside⟩ := move_ranges hx h
  constructor
  case lockedPresent => rw [state, locked]; exact h.lockedPresent
  case lockedRange => rw [locked]; exact h.lockedRange
  case candidateRange => rw [candidate]; exact h.candidateRange
  case matchHolds => rw [state, count]; exact h.matchHolds
  case matchBelow => rw [state, count]; exact h.matchBelow
  case linesStop => exact lines
  case pixelsStop => exact pixels
  case markRange => rw [mark]; exact h.markRange
  case lineBegun => exact counted
  case noFrame => rw [state]; exact fun none => outside (h.noFrame none)
  case regularLines => rw [state, irregular]; exact regular
  case lockedLines => rw [state, locked]; exact checked
  case faultLine => rw [fault]; exact h.faultLine

/-- A symbol that begins no line leaves the count of lines. -/
theorem move_linesBegun {x : FwdSymbol} (frame : x ≠ .frameStart) (line : x ≠ .lineStart) :
    (r.move x).linesBegun = r.linesBegun := by
  cases x with
  | frameStart => exact absurd rfl frame
  | lineStart => exact absurd rfl line
  | pixel => simp only [Tracker.move]; split <;> rfl
  | lineEnd => rw [move_lineEnd]
  | frameEnd => rw [move_frameEnd]
  | packetStart => rfl
  | packetByte => rfl
  | packetEnd => rfl
  | idle => rfl

theorem lineStart_linesBegun (h : r.Legal) : (r.move .lineStart).linesBegun ≤ r.linesBegun + 1 := by
  rw [move_lineStart h.linesStop]
  exact Nat.min_le_right _ _

/-! ### A measured frame (R104, R105) -/

/-- A frame still regular behind a symbol was regular before it, and the symbol passed its test. -/
theorem measure_regular {x : FwdSymbol} (inside : r.inFrame = true) (regular : (r.measure x).irregular = false) :
    r.irregular = false ∧ r.irregularAt x = false := by
  unfold Tracker.measure at regular
  simp only [inside, if_true] at regular
  split at regular
  · next irregular => simp [irregular] at regular
  · next clear =>
    refine ⟨by simpa using clear, ?_⟩
    split at regular
    · cases regular
    · next passes => simpa using passes

/-- The length mark stands, or takes the length of a line that passed its test. -/
theorem measure_mark (x : FwdSymbol) : (r.measure x).lengthMark = r.lengthMark ∨
    (r.measure x).lengthMark = some r.pixelsInLine ∧ r.irregularAt .lineEnd = false := by
  unfold Tracker.measure
  split
  · split
    · exact .inl rfl
    · split
      · exact .inl rfl
      · next passes =>
        split
        · next first => exact .inr ⟨rfl, by simpa [first.1] using passes⟩
        · exact .inl rfl
  · split <;> exact .inl rfl

theorem measure_legal (acquiring : r.rasterState = .acquiring) (h : r.Legal) (x : FwdSymbol) : (r.measure x).Legal := by
  obtain ⟨state, candidate, locked, frame, line, lines, pixels, -, fault, count⟩ := measure_frame r x
  constructor
  case lockedPresent => rw [state, locked]; exact h.lockedPresent
  case lockedRange => rw [locked]; exact h.lockedRange
  case candidateRange => rw [candidate]; exact h.candidateRange
  case matchHolds => rw [state]; intro other; simp [acquiring] at other
  case matchBelow =>
    rw [state]
    intro searching
    have below := h.matchBelow searching
    omega
  case linesStop => rw [lines]; exact h.linesStop
  case pixelsStop => rw [pixels]; exact h.pixelsStop
  case markRange =>
    intro m mark
    rcases measure_mark (r := r) x with stands | ⟨takes, passes⟩
    · exact h.markRange m (stands ▸ mark)
    · obtain rfl := Option.some.inj (takes.symm.trans mark)
      simp [Tracker.irregularAt] at passes
      omega
  case lineBegun => rw [line, lines]; exact h.lineBegun
  case noFrame => rw [state, frame]; exact h.noFrame
  case regularLines =>
    rw [state, frame, lines]
    exact fun measuring inside regular => h.regularLines measuring inside (measure_regular inside regular).1
  case lockedLines => rw [state, locked, lines]; exact h.lockedLines
  case faultLine => rw [fault]; exact h.faultLine

/-- A symbol taken in ACQUIRING, the end of a measured frame apart. -/
theorem measured_legal (acquiring : r.rasterState = .acquiring) (h : r.Legal) {x : FwdSymbol} (hx : x ≠ .frameStart) :
    ((r.measure x).move x).Legal := by
  obtain ⟨state, -, -, frame, -, lines, -⟩ := measure_frame r x
  have legal := measure_legal acquiring h x
  refine move_legal hx legal (fun _ inside regular => ?_) fun g locked => by simp [state, acquiring] at locked
  have begun : r.inFrame = true := by
    by_contra outside
    simp [(move_ranges hx legal).2.2.2 (frame.trans (by simpa using outside))] at inside
  obtain ⟨clear, passes⟩ := measure_regular begun regular
  by_cases line : x = .lineStart
  · subst line
    have room : r.linesBegun < 4096 := by
      simp [Tracker.irregularAt] at passes
      exact passes.2
    have next := lineStart_linesBegun legal
    omega
  · rw [move_linesBegun hx line, lines]
    exact h.regularLines acquiring begun clear

/-- The candidate and the count updated, and the lock, keep the laws when a regular frame has 8 to 4096 lines (R105). -/
theorem endMeasured_legal (acquiring : r.rasterState = .acquiring) (h : r.Legal)
    (regular : r.irregular = false → 8 ≤ r.linesBegun ∧ r.linesBegun ≤ 4096) : r.endMeasured.Legal := by
  have absent := locked_absent h (.inr acquiring)
  unfold Tracker.endMeasured
  split
  · next w clear mark =>
    have range : Geometry.InRange ⟨w, r.linesBegun⟩ :=
      ⟨(h.markRange w mark).1, (h.markRange w mark).2, (regular clear).1, (regular clear).2⟩
    dsimp only
    split
    · split
      · exact { h with
          lockedPresent := by simp
          lockedRange := fun g same => Option.some.inj same ▸ range
          matchHolds := fun _ => rfl
          matchBelow := by simp
          noFrame := nofun
          regularLines := nofun
          lockedLines := fun g _ same => Option.some.inj same ▸ le_rfl }
      · next short => exact { h with
          matchHolds := by simp [acquiring]
          matchBelow := fun _ => by simpa using short }
    · exact { h with
        candidateRange := fun g same => Option.some.inj same ▸ range
        matchHolds := by simp [acquiring]
        matchBelow := fun _ => by simp }
  · exact { h with
      matchHolds := by simp [acquiring]
      matchBelow := fun _ => by simp }

/-- The end of a measured frame finds a regular frame of 8 to 4096 lines (R104). -/
theorem frameEnd_regular (acquiring : r.rasterState = .acquiring) (h : r.Legal) (inside : r.inFrame = true)
    (regular : ((r.measure .frameEnd).move .frameEnd).irregular = false) :
    8 ≤ ((r.measure .frameEnd).move .frameEnd).linesBegun ∧ ((r.measure .frameEnd).move .frameEnd).linesBegun ≤ 4096 := by
  obtain ⟨-, -, -, -, -, lines, -⟩ := measure_frame r .frameEnd
  obtain ⟨-, -, -, -, -, mark, -⟩ := move_frame (r.measure .frameEnd) .frameEnd (by simp)
  obtain ⟨clear, passes⟩ := measure_regular inside (mark.symm.trans regular)
  rw [move_linesBegun (by simp) (by simp), lines]
  simp [Tracker.irregularAt] at passes
  exact ⟨passes.2, h.regularLines acquiring inside clear⟩

/-! ### A fault recorded (R107 to R109) -/

theorem recordFault_legal (locked : r.rasterState = .locked) (h : r.Legal) (k : FaultKind) : (r.recordFault k).Legal := by
  obtain ⟨g, geometry⟩ := Option.isSome_iff_exists.mp (h.lockedPresent.mpr (.inl locked))
  have height := (h.lockedRange g geometry).2.2.2
  have begun := h.lockedLines g locked geometry
  exact { h with
    lockedPresent := by simp [Tracker.recordFault, geometry]
    matchHolds := fun _ => h.matchHolds (.inl locked)
    matchBelow := by simp [Tracker.recordFault]
    noFrame := nofun
    regularLines := nofun
    lockedLines := nofun
    faultLine := fun f same => by
      obtain rfl := Option.some.inj same
      dsimp only
      split <;> omega }

/-! ### Any symbol, and a link down -/

/-- A good LINE_START of a locked frame finds fewer lines begun than the geometry has (R107). -/
theorem lineStart_good {g : Geometry} (geometry : r.locked = some g) (good : r.faultAt .lineStart = none) :
    r.linesBegun < g.h := by
  simp only [Tracker.faultAt, geometry, Option.map_some, Option.getD_some] at good
  split_ifs at good with _ _ short
  exact Nat.lt_of_not_le short

theorem after_legal (h : r.Legal) {x : FwdSymbol} (hx : x ≠ .frameStart) : (r.after x).Legal := by
  unfold Tracker.after
  cases state : r.rasterState with
  | noSignal => exact move_legal hx h (by simp [state]) (by simp [state])
  | disrupted => exact move_legal hx h (by simp [state]) (by simp [state])
  | acquiring =>
    have legal := measured_legal state h hx
    dsimp only
    split
    · next last =>
      obtain ⟨rfl, inside⟩ := last
      have same := (move_frame (r.measure .frameEnd) .frameEnd hx).1.trans (measure_frame r .frameEnd).1
      exact endMeasured_legal (same.trans state) legal (frameEnd_regular state h inside)
    · exact legal
  | locked =>
    dsimp only
    split
    · next good =>
      refine move_legal hx h (by simp [state]) fun g _ geometry => ?_
      by_cases line : x = .lineStart
      · subst line
        exact (lineStart_linesBegun h).trans (lineStart_good geometry good)
      · rw [move_linesBegun hx line]
        exact h.lockedLines g state geometry
    · next k _ => exact move_legal hx (recordFault_legal state h k) nofun nofun

theorem beginFrame_legal (h : r.Legal) (signal : r.rasterState ≠ .noSignal) : r.beginFrame.Legal :=
  { h with
    linesStop := Nat.zero_le _
    pixelsStop := Nat.zero_le _
    markRange := nofun
    lineBegun := nofun
    noFrame := fun none => absurd none signal
    regularLines := fun _ _ _ => Nat.zero_le _
    lockedLines := fun _ _ _ => Nat.zero_le _ }

/-- A frame begun in ACQUIRING keeps the laws, whatever the candidate and the count below 2 it is entered with. -/
theorem begun_acquiring_legal (h : r.Legal) {candidate : Option Geometry} (range : ∀ g, candidate = some g → g.InRange)
    {n : Nat} (below : n < 2) {locked : Option Geometry} (absent : locked = none) :
    ({ r.beginFrame with
      rasterState := .acquiring, candidate := candidate, matchCount := n, locked := locked } : Tracker).Legal where
  lockedPresent := by simp [absent]
  lockedRange := by simp [absent]
  candidateRange := range
  matchHolds := by simp
  matchBelow := fun _ => below
  linesStop := Nat.zero_le _
  pixelsStop := Nat.zero_le _
  markRange := nofun
  lineBegun := nofun
  noFrame := nofun
  regularLines := fun _ _ _ => Nat.zero_le _
  lockedLines := nofun
  faultLine := h.faultLine

theorem afterFrameStart_legal (h : r.Legal) : r.afterFrameStart.Legal := by
  unfold Tracker.afterFrameStart
  cases state : r.rasterState with
  | noSignal =>
    exact begun_acquiring_legal (r := r) h (candidate := none) nofun (n := 0) (by omega) (locked_absent (r := r) h (.inl state))
  | acquiring =>
    have begun := beginFrame_legal h (by simp [state])
    dsimp only
    split
    · exact { begun with
        matchHolds := fun other => absurd other (by simp [Tracker.beginFrame, Tracker.move, state])
        matchBelow := fun _ => by simp }
    · exact begun
  | disrupted => exact begun_acquiring_legal h h.lockedRange (n := 1) (by omega) rfl
  | locked =>
    dsimp only
    split
    · exact beginFrame_legal h (by simp [state])
    · next k _ => exact begun_acquiring_legal (recordFault_legal state h k) h.lockedRange (n := 1) (by omega) rfl

theorem loseSignal_legal (h : r.Legal) : r.loseSignal.Legal := { tracker_reset_legal with faultLine := h.faultLine }

end

theorem symbolOf_ne_frameStart {c : Instr} {x : FwdSymbol} (symbol : symbolOf c = some x) : x ≠ .frameStart := by
  rintro rfl
  cases c <;> simp [symbolOf] at symbol

theorem exec_tracker_legal {c : Instr} {s t : State} (h : s.tracker.Legal) (run : exec c s = .next t) : t.tracker.Legal := by
  rcases exec_tracker run with ⟨-, -, tracker⟩ | ⟨x, symbol, -, tracker⟩ | ⟨-, -, tracker⟩ | ⟨-, tracker⟩ | tracker <;>
    rw [tracker]
  · exact afterFrameStart_legal h
  · exact after_legal h (symbolOf_ne_frameStart symbol)
  · exact loseSignal_legal h
  · exact tracker_reset_legal
  · exact h

end Sys2Proof.Machine

namespace Sys2Proof.RasterTracking

open Sys2Proof.Machine

/-- Settles O4: what any command leaves of the tracker is one of five, and each keeps the laws. -/
theorem stepKeepsTrackerLegal : Obligations.StepKeepsTrackerLegal := by
  unfold Obligations.StepKeepsTrackerLegal
  intro s t h run
  unfold step at run
  split at run
  · exact Host.Outcome.next.inj run ▸ h
  · next c rest _ => exact exec_tracker_legal (s := { s with pending := rest }) h run

/-- Settles O19: of the five that a command can leave of the tracker, a FRAME_START taken alone increments the counter, and a hard
reset alone sets it. -/
theorem frameCounterCountsFrameStarts : Obligations.FrameCounterCountsFrameStarts := by
  unfold Obligations.FrameCounterCountsFrameStarts
  refine ⟨fun s t c hc run => ?_, fun s t c hc run => ?_⟩
  · split
    · next taken =>
      obtain ⟨rfl, receiving⟩ := taken
      rw [← Host.Outcome.next.inj run, onSymbol_receiving _ _ receiving, outputSlot_tracker, takeFrameStart_tracker,
        ← trackFrameStart_tracker, trackFrameStart_counter]
    · next other =>
      rcases exec_tracker run with ⟨frame, receiving, -⟩ | ⟨x, symbol, -, tracker⟩ | ⟨-, -, tracker⟩ | ⟨hard, -⟩ | tracker
      · exact absurd ⟨frame, receiving⟩ other
      · obtain ⟨-, -, -, -, counter⟩ := after_position s.tracker x (symbolOf_ne_frameStart symbol)
        rw [tracker, counter]
      · rw [tracker]
        rfl
      · simp [hc] at hard
      · rw [tracker]
  · cases c with
    | resetRelease straps => rw [← Host.Outcome.next.inj run]; rfl
    | powerUp straps => rw [← Host.Outcome.next.inj run]; rfl
    | _ => cases hc

end Sys2Proof.RasterTracking
end

section
/-! The events a symbol raises, block by block in the order in which the blocks take it (R113, R131, R152, log entry 13): what each block
appends to the events raised before it. -/

namespace Sys2Proof.Machine

/-! ### Events raised one after another -/

/-- What an event raised depends on beside the report unit. -/
structure ReportsAlike (s t : State) : Prop where
  address : t.unitAddress = s.unitAddress
  session : t.session = s.session
  reset : t.resetAsserted = s.resetAsserted
  room : t.upstreamRoom = s.upstreamRoom

theorem ReportsAlike.trans {s t u : State} (a : ReportsAlike s t) (b : ReportsAlike t u) : ReportsAlike s u :=
  ⟨b.address.trans a.address, b.session.trans a.session, b.reset.trans a.reset, b.room.trans a.room⟩

theorem alike_raise (e : Event) (s : State) : ReportsAlike s (raise e s) := ⟨rfl, rfl, rfl, rfl⟩

theorem alike_foldl (l : List Event) (s : State) : ReportsAlike s (l.foldl (fun u e => raise e u) s) := by
  induction l generalizing s with
  | nil => exact ⟨rfl, rfl, rfl, rfl⟩
  | cons e l ih => exact (alike_raise e s).trans (ih (raise e s))

theorem raised_congr {s t : State} (alike : ReportsAlike s t) (reports : t.reports = s.reports) (l : List Event) :
    t.raised l = s.raised l := by
  induction l generalizing s t with
  | nil => exact reports
  | cons e l ih =>
    exact ih (((⟨rfl, rfl, rfl, rfl⟩ : ReportsAlike (raise e s) s).trans alike).trans (alike_raise e t))
      (raise_reports_congr reports alike.address alike.session alike.reset alike.room e)

/-- Between two states these events were raised in turn, and nothing else was done to the report unit. -/
structure State.Raises (s : State) (l : List Event) (t : State) : Prop where
  alike : ReportsAlike s t
  reports : t.reports = s.raised l

theorem State.Raises.trans {s t u : State} {l m : List Event} (a : s.Raises l t) (b : t.Raises m u) : s.Raises (l ++ m) u where
  alike := a.alike.trans b.alike
  reports := by
    have first : ReportsAlike (l.foldl (fun u e => raise e u) s) t := by
      have fold := alike_foldl l s
      exact ⟨a.alike.address.trans fold.address.symm, a.alike.session.trans fold.session.symm,
        a.alike.reset.trans fold.reset.symm, a.alike.room.trans fold.room.symm⟩
    rw [b.reports, raised_congr first a.reports, State.raised, State.raised, List.foldl_append]

/-- An operation that raises nothing behind these events. -/
theorem State.Raises.followed {s t u : State} {l : List Event} (a : s.Raises l t) (alike : ReportsAlike t u)
    (reports : u.reports = t.reports) : s.Raises l u := ⟨a.alike.trans alike, reports.trans a.reports⟩

/-- An operation that raises nothing before these events. -/
theorem State.Raises.preceded {s t u : State} {l : List Event} (a : t.Raises l u) (alike : ReportsAlike s t)
    (reports : t.reports = s.reports) : s.Raises l u := ⟨alike.trans a.alike, a.reports.trans (raised_congr alike reports l)⟩

theorem raises_nothing {s t : State} (alike : ReportsAlike s t) (reports : t.reports = s.reports) : s.Raises [] t :=
  ⟨alike, reports⟩

theorem raises_raise (e : Event) (s : State) : s.Raises [e] (raise e s) := ⟨alike_raise e s, rfl⟩

/-! ### The compositor -/

theorem latchSummary_raises (cutShort : Bool) (s : State) :
    s.Raises (if 0 < s.compositor.working.linesTruncated then [.truncation (s.summary cutShort)] else [])
      (latchSummary cutShort s) := by
  unfold latchSummary
  dsimp only
  split
  · exact (raises_raise (.truncation (s.summary cutShort)) _).preceded ⟨rfl, rfl, rfl, rfl⟩ rfl
  · exact raises_nothing ⟨rfl, rfl, rfl, rfl⟩ rfl

theorem frameEvents_unset {s : State} (unset : s.compositor.compositing = false) (cutShort : Bool) :
    s.frameEvents cutShort = [] := by simp [State.frameEvents, unset]

theorem frameEvents_set {s : State} (set : s.compositor.compositing = true) (cutShort : Bool) : s.frameEvents cutShort =
    if 0 < s.compositor.working.linesTruncated then [.truncation (s.summary cutShort)] else [] := by
  simp [State.frameEvents, set]

theorem frameEvents_congr {s t : State} (compositor : t.compositor = s.compositor)
    (counter : t.tracker.frameCounter = s.tracker.frameCounter) (cutShort : Bool) :
    t.frameEvents cutShort = s.frameEvents cutShort := by
  simp only [State.frameEvents, State.summary, compositor, counter]

/-- The TRUNCATION event of a frame cut short (R66). -/
theorem stopCompositing_raises (s : State) : s.Raises (s.frameEvents true) (stopCompositing s) := by
  unfold stopCompositing
  split
  · next set => exact frameEvents_set set true ▸ latchSummary_raises true s
  · next unset => exact frameEvents_unset (by simpa using unset) true ▸ raises_nothing ⟨rfl, rfl, rfl, rfl⟩ rfl

/-- The TRUNCATION event of a frame that ends complete (R65). -/
theorem endCompositedFrame_raises (s : State) : s.Raises (s.frameEvents false) (endCompositedFrame s) := by
  unfold endCompositedFrame
  split
  · next set => exact frameEvents_set set false ▸ latchSummary_raises false s
  · next unset => exact frameEvents_unset (by simpa using unset) false ▸ raises_nothing ⟨rfl, rfl, rfl, rfl⟩ rfl

/-! ### The tracker (R108, R113) -/

/-- The data of the RASTER event that reports a tracker's state (R113). -/
def Tracker.rasterEvent (r : Tracker) : RasterEvent where
  rasterState := r.rasterState
  geometry := if r.rasterState = .locked ∨ r.rasterState = .disrupted then r.locked else none
  lastFault := r.fault.map FaultRecord.kind
  counter := r.frameCounter

theorem raiseRaster_raises (s : State) (r : Tracker) :
    s.Raises [.raster r.rasterEvent] (raiseRaster { s with tracker := r }) :=
  (raises_raise (.raster r.rasterEvent) { s with tracker := r }).preceded ⟨rfl, rfl, rfl, rfl⟩ rfl

theorem takeFault_raises (k : FaultKind) (s : State) : s.Raises (s.frameEvents true) (takeFault k s) :=
  (stopCompositing_raises { s with tracker := s.tracker.recordFault k }).preceded ⟨rfl, rfl, rfl, rfl⟩ rfl

theorem alike_trackSymbol (x : FwdSymbol) (s : State) : ReportsAlike s (trackSymbol x s) := by constructor <;> simp

/-- A symbol that leaves the raster state raises no event in the tracker. -/
theorem trackSymbol_raises_nothing {x : FwdSymbol} {s : State} (same : (s.tracker.after x).rasterState = s.tracker.rasterState)
    (frame : x ≠ .frameStart) : s.Raises [] (trackSymbol x s) := by
  refine raises_nothing (alike_trackSymbol x s) ?_
  unfold trackSymbol
  unfold Tracker.after at same
  cases state : s.tracker.rasterState with
  | noSignal => rfl
  | disrupted => rfl
  | acquiring =>
    simp only [state] at same ⊢
    split
    · next last =>
      rw [if_pos last] at same
      rw [if_neg (by simp [same])]
    · rfl
  | locked =>
    simp only [state] at same ⊢
    split
    · rfl
    · next k fault =>
      simp only [fault, (move_frame _ x frame).1] at same
      cases same

/-- A lock raises the RASTER event of LOCKED (R105, R113). -/
theorem trackSymbol_raises_lock {s : State} (acquiring : s.tracker.rasterState = .acquiring) (inside : s.tracker.inFrame = true)
    (locks : (s.tracker.after .frameEnd).rasterState = .locked) :
    s.Raises [.raster (s.tracker.after .frameEnd).rasterEvent] (trackSymbol .frameEnd s) := by
  unfold Tracker.after at locks ⊢
  unfold trackSymbol
  simp only [acquiring, inside, and_self, if_true] at locks ⊢
  rw [if_pos locks]
  exact raiseRaster_raises s _

/-- A fault in LOCKED raises the TRUNCATION event of the frame it cuts short, and then the RASTER event of DISRUPTED (R108). -/
theorem trackSymbol_raises_fault {x : FwdSymbol} {s : State} {k : FaultKind} (locked : s.tracker.rasterState = .locked)
    (fault : s.tracker.faultAt x = some k) :
    s.Raises (s.frameEvents true ++ [.raster (s.tracker.after x).rasterEvent]) (trackSymbol x s) := by
  unfold trackSymbol Tracker.after
  simp only [locked, fault, takeFault_tracker]
  exact (takeFault_raises k s).trans (raiseRaster_raises _ _)

theorem alike_trackFrameStart (s : State) : ReportsAlike s (trackFrameStart s) := by constructor <;> simp

/-- A FRAME_START that enters ACQUIRING from NO_SIGNAL or DISRUPTED (R102). -/
theorem trackFrameStart_raises_acquiring {s : State}
    (waiting : s.tracker.rasterState = .noSignal ∨ s.tracker.rasterState = .disrupted) :
    s.Raises [.raster s.tracker.afterFrameStart.rasterEvent] (trackFrameStart s) := by
  unfold Tracker.afterFrameStart trackFrameStart
  rcases waiting with state | state <;> simp only [state] <;>
    exact raiseRaster_raises s _

/-- The two RASTER events of a FRAME_RESTART, behind the TRUNCATION event of the frame it cuts short (R111). -/
theorem trackFrameStart_raises_restart {s : State} (locked : s.tracker.rasterState = .locked) (inside : s.tracker.inFrame = true) :
    s.Raises (s.frameEvents true ++
      [.raster (s.tracker.recordFault .frameRestart).beginFrame.rasterEvent,
        .raster (s.tracker.recordFault .frameRestart).beginFrame.reacquire.rasterEvent]) (trackFrameStart s) := by
  unfold trackFrameStart
  simp only [locked, Tracker.faultAt, inside, if_true, takeFault_tracker, raiseRaster_tracker]
  have disrupted := (takeFault_raises .frameRestart s).trans
    (raiseRaster_raises (takeFault .frameRestart s) (s.tracker.recordFault .frameRestart).beginFrame)
  have acquiring := disrupted.trans (raiseRaster_raises _ (s.tracker.recordFault .frameRestart).beginFrame.reacquire)
  rwa [List.append_assoc] at acquiring

/-! ### The generation controller (R33) -/

theorem applyIfDue_raises (s : State) : (trackFrameStart s).Raises s.commitEvents (applyIfDue (trackFrameStart s)) := by
  unfold State.commitEvents
  split
  · next due =>
    rw [applyIfDue_due due, applyGeneration, applyTables_tracker, trackFrameStart_counter, applyTables,
      trackFrameStart_generations]
    exact (raises_raise _ _).preceded ⟨rfl, rfl, rfl, rfl⟩ rfl
  · next idle =>
    rw [applyIfDue_notDue idle]
    exact raises_nothing ⟨rfl, rfl, rfl, rfl⟩ rfl

/-! ### The packet filter (R127, R131) -/

theorem countTruncated_raises {s : State} (stops : s.filter.truncTally ≤ 65535) :
    s.Raises [.link ⟨.truncated, s.filter.crcTally, min 65535 (s.filter.truncTally + 1), s.tracker.frameCounter⟩]
      (countTruncated s) := by
  have counted : satSucc 65535 s.filter.truncTally = min 65535 (s.filter.truncTally + 1) := by
    unfold satSucc; split <;> omega
  rw [← counted]
  exact (raises_raise _ _).preceded ⟨rfl, rfl, rfl, rfl⟩ rfl

theorem endOpenPacket_raises {s : State} (stops : s.filter.truncTally ≤ 65535) :
    s.Raises (s.cutEvents s.tracker.frameCounter) (endOpenPacket s) := by
  unfold endOpenPacket State.cutEvents
  cases reception : s.filter.reception with
  | none => exact raises_nothing ⟨rfl, rfl, rfl, rfl⟩ rfl
  | unexamined => exact raises_nothing ⟨rfl, rfl, rfl, rfl⟩ rfl
  | holding =>
    exact (countTruncated_raises (s := closePacket (releaseAll s)) stops).preceded ⟨rfl, rfl, rfl, rfl⟩ rfl
  | overlong => exact (countTruncated_raises (s := closePacket s) stops).preceded ⟨rfl, rfl, rfl, rfl⟩ rfl

theorem filterRaster_raises {s : State} (stops : s.filter.truncTally ≤ 65535) (x : FwdSymbol) :
    s.Raises (s.cutEvents s.tracker.frameCounter) (filterRaster x s) :=
  (endOpenPacket_raises stops).followed ⟨rfl, rfl, rfl, rfl⟩ rfl

theorem filterPacketStart_raises {s : State} (stops : s.filter.truncTally ≤ 65535) :
    s.Raises (s.cutEvents s.tracker.frameCounter) (filterPacketStart s) := by
  unfold filterPacketStart
  dsimp only
  split <;> exact (endOpenPacket_raises stops).followed ⟨rfl, rfl, rfl, rfl⟩ rfl

/-- A PACKET_END counts a packet in OVERLONG; what it makes of a held one is decided apart. -/
theorem filterPacketEnd_raises {s : State} (stops : s.filter.truncTally ≤ 65535) (undecided : s.filter.reception ≠ .holding) :
    s.Raises (s.cutEvents s.tracker.frameCounter) (filterPacketEnd s) := by
  unfold filterPacketEnd State.cutEvents
  cases reception : s.filter.reception with
  | none => exact raises_nothing ⟨rfl, rfl, rfl, rfl⟩ rfl
  | unexamined => exact raises_nothing ⟨rfl, rfl, rfl, rfl⟩ rfl
  | holding => exact absurd reception undecided
  | overlong =>
    exact (countTruncated_raises (s := closePacket (join .packetEnd false s)) stops).preceded ⟨rfl, rfl, rfl, rfl⟩ rfl

/-! ### Whole symbols -/

section
variable {s t : State} {c : Instr} {x : FwdSymbol} {l : List Event}

theorem alike_outputSlot (s : State) : ReportsAlike s (outputSlot s) := by constructor <;> simp

/-- The tracker's part of a symbol leaves what a packet cut reports. -/
theorem trackSymbol_cutEvents (hx : x ≠ .frameStart) :
    (trackSymbol x s).cutEvents (trackSymbol x s).tracker.frameCounter = s.cutEvents s.tracker.frameCounter := by
  obtain ⟨-, -, -, -, counter⟩ := after_position s.tracker x hx
  rw [trackSymbol_tracker, counter, State.cutEvents, State.cutEvents, trackSymbol_filter]

/-- A symbol that reaches the filter behind the tracker, by whichever of its operations that ends the open packet. -/
theorem State.Raises.cut {f : State → State} (tracked : s.Raises l (trackSymbol x s)) (hx : x ≠ .frameStart)
    (cuts : (trackSymbol x s).Raises ((trackSymbol x s).cutEvents (trackSymbol x s).tracker.frameCounter) (f (trackSymbol x s))) :
    s.Raises (l ++ s.cutEvents s.tracker.frameCounter) (f (trackSymbol x s)) := by
  rw [trackSymbol_cutEvents hx] at cuts
  exact tracked.trans cuts

theorem exec_frameEnd_raises (receiving : s.receiving = true) (run : exec .frameEnd s = .next t)
    (stops : s.filter.truncTally ≤ 65535) (tracked : s.Raises l (trackSymbol .frameEnd s)) :
    s.Raises (l ++ s.cutEvents s.tracker.frameCounter ++ (trackSymbol .frameEnd s).frameEvents false) t := by
  obtain rfl := Host.Outcome.next.inj run
  rw [onSymbol_receiving _ _ receiving]
  have filtered := tracked.cut (f := filterRaster .frameEnd) (by simp) (filterRaster_raises (by simpa using stops) _)
  have events := frameEvents_congr (s := trackSymbol .frameEnd s) (t := filterRaster .frameEnd (trackSymbol .frameEnd s))
    (by simp) (by simp) false
  rw [← events]
  exact (filtered.trans (endCompositedFrame_raises _)).followed (alike_outputSlot _) (by simp [takeFrameEnd])

/-- A symbol raises the tracker's events and then the LINK event of the packet it cuts (log entry 13), where it ends no composited
frame and decides no held packet. -/
theorem exec_symbol_raises (symbol : symbolOf c = some x) (receiving : s.receiving = true) (run : exec c s = .next t)
    (stops : s.filter.truncTally ≤ 65535) (undecided : c ≠ .packetEnd ∨ s.filter.reception ≠ .holding)
    (unended : c = .frameEnd → (trackSymbol x s).compositor.compositing = false) (tracked : s.Raises l (trackSymbol x s)) :
    s.Raises (l ++ s.cutBy c) t := by
  have stops' : (trackSymbol x s).filter.truncTally ≤ 65535 := by simpa using stops
  have slot : ∀ {m : List Event} {f : State → State}, exec c s = .next (onSymbol f s) → s.Raises m (f s) → s.Raises m t := by
    intro m f ran raises
    obtain rfl := Host.Outcome.next.inj (run.symm.trans ran)
    rw [onSymbol_receiving _ _ receiving]
    exact raises.followed (alike_outputSlot _) (by simp)
  have quiet : ∀ {u : State}, ReportsAlike (trackSymbol x s) u → u.reports = (trackSymbol x s).reports → s.Raises (l ++ []) u := by
    intro u alike reports
    exact (List.append_nil l).symm ▸ tracked.followed alike reports
  cases c <;> simp only [symbolOf, reduceCtorEq, Option.some.injEq] at symbol <;> subst symbol
  case lineStart =>
    exact slot rfl ((tracked.cut (f := filterRaster .lineStart) (by simp) (filterRaster_raises stops' _)).followed
      (by constructor <;> simp [takeLineStart]) (by simp [takeLineStart]))
  case pixel c0 c1 c2 => exact slot rfl (tracked.cut (f := filterRaster _) (by simp) (filterRaster_raises stops' _))
  case lineEnd =>
    exact slot rfl ((tracked.cut (f := filterRaster .lineEnd) (by simp) (filterRaster_raises stops' _)).followed
      (by constructor <;> simp [takeLineEnd]) (by simp [takeLineEnd]))
  case frameEnd =>
    have ended := exec_frameEnd_raises receiving run stops tracked
    rwa [frameEvents_unset (unended rfl), List.append_nil] at ended
  case packetStart => exact slot rfl (tracked.cut (by simp) (filterPacketStart_raises stops'))
  case packetByte b => exact slot rfl (quiet (by constructor <;> simp) (by simp))
  case packetEnd =>
    exact slot rfl (tracked.cut (by simp) (filterPacketEnd_raises stops' (by simpa using undecided)))
  case idle => exact slot rfl (quiet (by constructor <;> simp) (by simp))

/-- A FRAME_START raises the tracker's events, the COMMIT event of the apply, and the LINK event of the packet it cuts, with the
counter after the increment (log entries 13 and 25). -/
theorem takeFrameStart_raises (stops : s.filter.truncTally ≤ 65535) (tracked : s.Raises l (trackFrameStart s)) :
    s.Raises (l ++ s.commitEvents ++ s.cutEvents (s.tracker.frameCounter + 1)) (outputSlot (takeFrameStart s)) := by
  have cuts := filterRaster_raises (s := applyIfDue (trackFrameStart s)) (by simpa using stops) .frameStart
  have counter : (applyIfDue (trackFrameStart s)).cutEvents (applyIfDue (trackFrameStart s)).tracker.frameCounter =
      s.cutEvents (s.tracker.frameCounter + 1) := by
    simp [State.cutEvents, trackFrameStart_counter]
  rw [counter] at cuts
  exact ((tracked.trans (applyIfDue_raises s)).trans cuts).followed (by constructor <;> simp [takeFrameStart])
    (by simp [takeFrameStart])

end

end Sys2Proof.Machine
end

section
/-! What a FRAME_START makes of the tracker and of the compositor (R46, R100 to R102, R110, R111). -/

namespace Sys2Proof.Machine

section
variable {r : Tracker}

/-! ### The tracker, by the raster state it finds -/

theorem afterFrameStart_noSignal (state : r.rasterState = .noSignal) : r.afterFrameStart =
    { r.beginFrame with rasterState := .acquiring, candidate := none, matchCount := 0 } := by
  simp only [Tracker.afterFrameStart, state]

theorem afterFrameStart_acquiring (state : r.rasterState = .acquiring) :
    r.afterFrameStart = if r.inFrame = true then { r.beginFrame with matchCount := 0 } else r.beginFrame := by
  simp only [Tracker.afterFrameStart, state]

theorem afterFrameStart_disrupted (state : r.rasterState = .disrupted) : r.afterFrameStart = r.reacquire.beginFrame := by
  simp only [Tracker.afterFrameStart, state]

theorem afterFrameStart_locked (state : r.rasterState = .locked) (outside : r.inFrame = false) :
    r.afterFrameStart = r.beginFrame := by
  simp [Tracker.afterFrameStart, state, Tracker.faultAt, outside]

theorem afterFrameStart_restart (state : r.rasterState = .locked) (inside : r.inFrame = true) :
    r.afterFrameStart = (r.recordFault .frameRestart).beginFrame.reacquire := by
  simp [Tracker.afterFrameStart, state, Tracker.faultAt, inside]

/-- A FRAME_START leaves the tracker LOCKED only where it found it so between frames. -/
theorem afterFrameStart_unlocked (other : r.rasterState ≠ .locked ∨ r.inFrame = true) :
    r.afterFrameStart.rasterState ≠ .locked := by
  cases state : r.rasterState with
  | noSignal => rw [afterFrameStart_noSignal state]; simp
  | acquiring =>
    rw [afterFrameStart_acquiring state]
    split <;> simp [Tracker.beginFrame, Tracker.move, state]
  | disrupted => rw [afterFrameStart_disrupted state]; simp [Tracker.beginFrame, Tracker.move, Tracker.reacquire]
  | locked =>
    rw [afterFrameStart_restart state (other.resolve_left (not_not_intro state))]
    simp [Tracker.reacquire]

end

/-! ### The compositor -/

section
variable {s : State}

theorem exec_frameStart (receiving : s.receiving = true) : exec .frameStart s = .next (outputSlot (takeFrameStart s)) :=
  congrArg Host.Outcome.next (onSymbol_receiving s takeFrameStart receiving)

/-- The compositing decision of a FRAME_START (R46). -/
theorem frameStart_compositing (s : State) : (outputSlot (takeFrameStart s)).compositor.compositing =
    (decide (s.tracker.afterFrameStart.rasterState = .locked) &&
      decide ((outputSlot (takeFrameStart s)).generations.activeMode ≠ .pass)) := by
  simp [takeFrameStart, decideCompositing, trackFrameStart_tracker]

/-- A FRAME_START inside a composited frame latches its summary as cut short (R66, R111). -/
theorem frameStart_latches (state : s.tracker.rasterState = .locked) (inside : s.tracker.inFrame = true)
    (set : s.compositor.compositing = true) :
    (outputSlot (takeFrameStart s)).compositor.lastFrame = s.summary true ∧
      (outputSlot (takeFrameStart s)).compositor.working = WorkingSummary.zero := by
  simp [takeFrameStart, decideCompositing, trackFrameStart_compositor, state, inside, set, State.summary]

end

end Sys2Proof.Machine

namespace Sys2Proof.RasterTracking

open Sys2Proof.Machine

/-- Settles O46, raster state by raster state: the tracker's part decides the state, the events before the apply's, and with the
active mode whether the frame is composited. -/
theorem frameStartMovesTheRasterState : Obligations.FrameStartMovesTheRasterState := by
  unfold Obligations.FrameStartMovesTheRasterState
  intro s receiving r begun
  have tracker : (outputSlot (takeFrameStart s)).tracker = r.afterFrameStart := by simp [r]
  have raised : ∀ {l : List Event}, s.Raises l (trackFrameStart s) → s.filter.Legal →
      (outputSlot (takeFrameStart s)).reports = s.raised (l ++ s.commitEvents ++ s.cutEvents (r.frameCounter + 1)) :=
    fun tracked legal => (takeFrameStart_raises legal.truncStop tracked).reports
  have quiet : r.rasterState = .acquiring ∨ r.rasterState = .locked ∧ r.inFrame = false → s.Raises [] (trackFrameStart s) :=
    fun plain => raises_nothing (alike_trackFrameStart s) (trackFrameStart_reports plain)
  have flag := frameStart_compositing s
  refine ⟨_, exec_frameStart receiving, fun state => ⟨?_, ?_⟩, fun state outside => ?_, fun state inside => ?_, fun state => ?_,
    fun state => ⟨?_, ?_⟩, fun state outside => ⟨?_, ?_, ?_⟩, fun state inside => ⟨?_, fun set => ?_, ?_⟩, fun other => ?_⟩
  · rw [tracker, afterFrameStart_noSignal state]
    rfl
  · have tracked := trackFrameStart_raises_acquiring (.inl state)
    rw [afterFrameStart_noSignal state] at tracked
    exact raised tracked
  · rw [tracker, afterFrameStart_acquiring state, outside]
    rfl
  · rw [tracker, afterFrameStart_acquiring state, inside]
    rfl
  · exact raised (quiet (.inl state))
  · rw [tracker, afterFrameStart_disrupted state]
    rfl
  · have tracked := trackFrameStart_raises_acquiring (.inr state)
    rw [afterFrameStart_disrupted state] at tracked
    exact raised tracked
  · rw [tracker, afterFrameStart_locked state outside]
    rfl
  · rw [flag, afterFrameStart_locked state outside]
    simp [Tracker.beginFrame, Tracker.move, state]
  · exact raised (quiet (.inr ⟨state, outside⟩))
  · rw [tracker, afterFrameStart_restart state inside]
    rfl
  · exact frameStart_latches state inside set
  · exact raised (trackFrameStart_raises_restart state inside)
  · rw [flag, decide_eq_false (afterFrameStart_unlocked other), Bool.false_and]

end Sys2Proof.RasterTracking
end

section
/-! The symbols other than FRAME_START, by the raster state they find: what they leave of the tracker, the compositor and the tables (R100,
R103, R106 to R109). -/

namespace Sys2Proof.Machine

section
variable {r : Tracker} {x : FwdSymbol}

theorem after_unjudged (state : r.rasterState = .noSignal ∨ r.rasterState = .disrupted) (x : FwdSymbol) :
    r.after x = r.move x := by
  rcases state with state | state <;> simp only [Tracker.after, state]

theorem after_good (state : r.rasterState = .locked) (good : r.faultAt x = none) : r.after x = r.move x := by
  simp only [Tracker.after, state, good]

theorem after_fault {k : FaultKind} (state : r.rasterState = .locked) (fault : r.faultAt x = some k) :
    r.after x = (r.recordFault k).move x := by
  simp only [Tracker.after, state, fault]

/-- What a fault in LOCKED leaves of the tracker, the position apart (R108, R109). -/
theorem fault_tracker {k : FaultKind} (state : r.rasterState = .locked) (fault : r.faultAt x = some k) (hx : x ≠ .frameStart) :
    (r.after x).rasterState = .disrupted ∧ (r.after x).locked = r.locked ∧ (r.after x).frameCounter = r.frameCounter ∧
      (r.after x).fault = some ⟨k, r.frameCounter, if r.inLine = true then r.linesBegun - 1 else r.linesBegun⟩ := by
  obtain ⟨disrupted, -, -, locked, -, -, counter, record⟩ := move_frame (r.recordFault k) x hx
  rw [after_fault state fault]
  exact ⟨disrupted, locked, counter, record⟩

/-- The RASTER event of a fault (R113). -/
theorem fault_rasterEvent {k : FaultKind} (state : r.rasterState = .locked) (fault : r.faultAt x = some k)
    (hx : x ≠ .frameStart) : (r.after x).rasterEvent = ⟨.disrupted, r.locked, some k, r.frameCounter⟩ := by
  obtain ⟨disrupted, locked, counter, record⟩ := fault_tracker state fault hx
  simp [Tracker.rasterEvent, disrupted, locked, counter, record]

end

section
variable {s t : State} {c : Instr} {x : FwdSymbol}

/-- No packet is held inside a line (R121, R128). -/
theorem notHolding_of_inLine (holding : s.HoldingLegal) (inside : s.tracker.inLine = true) : s.filter.reception ≠ .holding :=
  fun held => by simp [(holding held).1] at inside

/-- A raster symbol reaches neither the session nor a table. -/
theorem exec_raster_tables (symbol : symbolOf c = some x) (raster : (rasterOf c).isSome = true) (receiving : s.receiving = true)
    (run : exec c s = .next t) : t.session = s.session ∧ t.objects = s.objects ∧ t.generations = s.generations ∧
      t.palettes = s.palettes ∧ t.images = s.images := by
  have slot : ∀ {f : State → State}, exec c s = .next (onSymbol f s) → t = outputSlot (f s) := by
    intro f ran
    rw [← onSymbol_receiving _ _ receiving]
    exact Host.Outcome.next.inj (run.symm.trans ran)
  cases c <;> simp only [symbolOf, reduceCtorEq] at symbol <;> simp only [rasterOf, Option.isSome_none, reduceCtorEq] at raster
  case lineStart => rw [slot (f := takeLineStart) rfl]; simp [takeLineStart]
  case pixel c0 c1 c2 => rw [slot (f := takePixel ⟨c0, c1, c2⟩) rfl]; simp [takePixel]
  case lineEnd => rw [slot (f := takeLineEnd) rfl]; simp [takeLineEnd]
  case frameEnd => rw [slot (f := takeFrameEnd) rfl]; simp [takeFrameEnd]

/-- With the flag clear behind the tracker's part of a symbol, and no candidate, the rest of the symbol leaves the compositor. -/
theorem exec_symbol_compositor (symbol : symbolOf c = some x) (receiving : s.receiving = true) (run : exec c s = .next t)
    (unset : (trackSymbol x s).compositor.compositing = false) (empty : (trackSymbol x s).compositor.candidates = []) :
    t.compositor = (trackSymbol x s).compositor := by
  have slot : ∀ {f : State → State}, exec c s = .next (onSymbol f s) → t.compositor = (f s).compositor := by
    intro f ran
    rw [Host.Outcome.next.inj (run.symm.trans ran), onSymbol_receiving _ _ receiving, outputSlot_compositor]
  cases c <;> simp only [symbolOf, reduceCtorEq, Option.some.injEq] at symbol <;> subst symbol
  case lineStart =>
    obtain ⟨-, stands, -⟩ := buildLine_frame (filterRaster .lineStart (trackSymbol .lineStart s))
    rw [filterRaster_compositor] at stands
    exact (slot (f := takeLineStart) rfl).trans (stands unset)
  case pixel c0 c1 c2 => exact (slot (f := takePixel ⟨c0, c1, c2⟩) rfl).trans (by simp [takePixel])
  case lineEnd =>
    refine (slot (f := takeLineEnd) rfl).trans ?_
    simp only [takeLineEnd, emptyCandidates, filterRaster_compositor, ← empty]
  case frameEnd =>
    refine (slot (f := takeFrameEnd) rfl).trans ?_
    simp [takeFrameEnd, endCompositedFrame, unset]
  case packetStart => exact (slot rfl).trans (by simp)
  case packetByte b => exact (slot rfl).trans (by simp)
  case packetEnd => exact (slot rfl).trans (by simp)
  case idle => exact (slot rfl).trans (by simp)

/-- A fault in LOCKED leaves the flag clear and the list empty, and latches the summary of a frame composited (R47, R66). -/
theorem fault_compositor {k : FaultKind} (legal : s.CompositorLegal) (locked : s.tracker.rasterState = .locked)
    (fault : s.tracker.faultAt x = some k) :
    (trackSymbol x s).compositor.compositing = false ∧ (trackSymbol x s).compositor.candidates = [] ∧
      (s.compositor.compositing = true → (trackSymbol x s).compositor.lastFrame = s.summary true ∧
        (trackSymbol x s).compositor.working = WorkingSummary.zero) := by
  rw [trackSymbol_compositor]
  cases set : s.compositor.compositing with
  | true => simp [locked, fault, State.summary]
  | false => simp [set, legal.clear set]

/-- A FRAME_END of a frame that is not composited leaves the compositor (R65). -/
theorem exec_frameEnd_uncomposited (receiving : s.receiving = true) (unset : s.compositor.compositing = false) :
    ∃ t, exec .frameEnd s = .next t ∧ t.compositor = s.compositor := by
  refine ⟨_, congrArg Host.Outcome.next (onSymbol_receiving s takeFrameEnd receiving), ?_⟩
  simp [takeFrameEnd, endCompositedFrame, trackSymbol_compositor, unset]

/-- The FRAME_END of a good composited frame latches its summary as complete (R65). -/
theorem exec_frameEnd_complete (receiving : s.receiving = true) (locked : s.tracker.rasterState = .locked)
    (good : s.tracker.faultAt .frameEnd = none) (set : s.compositor.compositing = true) :
    ∃ t, exec .frameEnd s = .next t ∧ t.compositor = ⟨false, [], WorkingSummary.zero, s.summary false⟩ := by
  refine ⟨_, congrArg Host.Outcome.next (onSymbol_receiving s takeFrameEnd receiving), ?_⟩
  simp [takeFrameEnd, endCompositedFrame, trackSymbol_good locked good, set, latchSummary_compositor, State.summary, Tracker.move]
  split <;> rfl

end

end Sys2Proof.Machine

namespace Sys2Proof.RasterTracking

open Sys2Proof.Machine

/-- Settles O47: what a fault does is the same for each row of R107, and each row is a branch of the tracker's check. -/
theorem lockedSymbolsAreChecked : Obligations.LockedSymbolsAreChecked := by
  unfold Obligations.LockedSymbolsAreChecked
  intro s g receiving legal state geometry r cuts faultedAnd faulted
  have faults : ∀ {c : Instr} {x : FwdSymbol} {k : FaultKind}, symbolOf c = some x → r.faultAt x = some k →
      (c = .packetEnd → r.inLine = true) → faultedAnd (s.cutBy c) c k := by
    intro c x k symbol fault inside
    have hx := symbolOf_ne_frameStart symbol
    obtain ⟨t, run, tracker⟩ := exec_symbol symbol receiving
    obtain ⟨disrupted, kept, counter, record⟩ := fault_tracker state fault hx
    obtain ⟨unset, empty, latched⟩ := fault_compositor legal state fault
    have compositor := exec_symbol_compositor symbol receiving run unset empty
    have tracked := trackSymbol_raises_fault state fault
    rw [fault_rasterEvent state fault hx, geometry] at tracked
    rw [← compositor] at unset empty latched
    rw [← tracker] at disrupted kept counter record
    refine ⟨t, run, disrupted, kept.trans geometry, counter, record, unset, empty, latched, fun filter holding => ?_⟩
    have undecided : c ≠ .packetEnd ∨ s.filter.reception ≠ .holding :=
      or_iff_not_imp_left.mpr fun last => notHolding_of_inLine holding (inside (not_not.mp last))
    exact (exec_symbol_raises symbol receiving run filter.truncStop undecided (fun _ => compositor ▸ unset) tracked).reports
  refine ⟨fun inside => ⟨?_, fun b => ?_, ?_, ?_, ?_⟩, fun outside => ⟨?_, ?_⟩, fun inside between lines => ?_,
    fun outside => ⟨fun a b c => ?_, ?_⟩, fun inside long a b c => ?_, fun inside short => ?_, fun inside between lines => ?_⟩
  · exact faults (c := .packetStart) rfl (by simp [Tracker.faultAt, inside]) nofun
  · exact faults (c := .packetByte b) rfl (by simp [Tracker.faultAt, inside]) nofun
  · exact faults (c := .packetEnd) rfl (by simp [Tracker.faultAt, inside]) fun _ => inside
  · exact faults (c := .lineStart) rfl (by simp [Tracker.faultAt, inside]) nofun
  · exact faults (c := .frameEnd) rfl (by simp [Tracker.faultAt, inside]) nofun
  · exact faults (c := .lineStart) rfl (by simp [Tracker.faultAt, outside]) nofun
  · exact faults (c := .frameEnd) rfl (by simp [Tracker.faultAt, outside]) nofun
  · exact faults (c := .lineStart) rfl (by simp [Tracker.faultAt, inside, between, r, geometry, lines]) nofun
  · exact faults (c := .pixel a b c) rfl (by simp [Tracker.faultAt, outside]) nofun
  · exact faults (c := .lineEnd) rfl (by simp [Tracker.faultAt, outside]) nofun
  · exact faults (c := .pixel a b c) rfl (by simp [Tracker.faultAt, inside, r, geometry, long]) nofun
  · exact faults (c := .lineEnd) rfl (by simp [Tracker.faultAt, inside, r, geometry, short]) nofun
  · exact faults (c := .frameEnd) rfl (by simp [Tracker.faultAt, inside, between, r, geometry, lines]) nofun

end Sys2Proof.RasterTracking
end

section
/-! The symbols of a good frame (R106). -/

namespace Sys2Proof.Machine

section
variable {s t : State} {c : Instr} {x : FwdSymbol}

/-- A symbol that is no fault of a locked frame leaves the tracker LOCKED, the geometry and the record (R106). -/
theorem exec_good (receiving : s.receiving = true) (state : s.tracker.rasterState = .locked) (symbol : symbolOf c = some x)
    (good : s.tracker.faultAt x = none) : ∃ t, exec c s = .next t ∧ t.tracker.rasterState = .locked ∧
      t.tracker.locked = s.tracker.locked ∧ t.tracker.fault = s.tracker.fault := by
  obtain ⟨t, run, tracker⟩ := exec_symbol symbol receiving
  obtain ⟨same, -, -, locked, -, -, -, fault⟩ := move_frame s.tracker x (symbolOf_ne_frameStart symbol)
  rw [after_good state good] at tracker
  rw [← tracker] at same locked fault
  exact ⟨t, run, same.trans state, locked, fault⟩

theorem trackSymbol_good_raises (state : s.tracker.rasterState = .locked) (good : s.tracker.faultAt x = none) :
    s.Raises [] (trackSymbol x s) := by
  rw [trackSymbol_good state good]
  exact raises_nothing ⟨rfl, rfl, rfl, rfl⟩ rfl

end

end Sys2Proof.Machine

namespace Sys2Proof.RasterTracking

open Sys2Proof.Machine

/-- Settles O48: the position is the one R100 gives in every raster state, and each good symbol is one for which the tracker's check
finds no row of R107. -/
theorem symbolsMoveThePosition : Obligations.SymbolsMoveThePosition := by
  unfold Obligations.SymbolsMoveThePosition
  intro s receiving legal r moves goodAnd good
  have position : ∀ {c : Instr} {x : FwdSymbol}, symbolOf c = some x →
      moves c (r.move x).inFrame (r.move x).inLine (r.move x).linesBegun (r.move x).pixelsInLine := by
    intro c x symbol
    have hx := symbolOf_ne_frameStart symbol
    obtain ⟨t, run, tracker⟩ := exec_symbol symbol receiving
    obtain ⟨frame, line, lines, pixels, counter⟩ := after_position r x hx
    refine ⟨t, run, ?_, ?_, fun unjudged => ?_, fun raster => exec_raster_tables symbol raster receiving run⟩
    · rw [tracker]; exact ⟨frame, line, lines, pixels⟩
    · rw [tracker]; exact counter
    · obtain ⟨state, -, -, locked, -, -, -, fault⟩ := move_frame r x hx
      rw [tracker, after_unjudged unjudged]
      exact ⟨state, fault, locked⟩
  have ofGood : ∀ {c : Instr} {x : FwdSymbol}, r.rasterState = .locked → symbolOf c = some x → c ≠ .frameEnd →
      r.faultAt x = none → good c := by
    intro c x state symbol unended none
    obtain ⟨t, run, locked, kept, fault⟩ := exec_good receiving state symbol none
    refine ⟨t, run, locked, kept, fault, fun filter undecided => ?_⟩
    rw [List.append_nil]
    exact (exec_symbol_raises symbol receiving run filter.truncStop undecided (fun ends => absurd ends unended)
      (trackSymbol_good_raises state none)).reports
  refine ⟨?_, fun a b c => ?_, ?_, ?_, position (c := .packetStart) rfl, fun b => position (c := .packetByte b) rfl,
    position (c := .packetEnd) rfl, position (c := .idle) rfl, exec_frameEnd_uncomposited receiving, fun g state geometry =>
    ⟨fun inside => ⟨fun outside lines => ?_, fun a b c within short => ?_, fun within full => ?_, fun outside lines => ⟨?_, ?_⟩⟩,
      fun outside => ⟨?_, fun b => ?_, ?_⟩, ?_⟩⟩
  · have moved := position (c := .lineStart) rfl
    rwa [move_lineStart legal.linesStop] at moved
  · have moved := position (c := .pixel a b c) rfl
    rwa [move_pixel legal.pixelsStop] at moved
  · have moved := position (c := .lineEnd) rfl
    rwa [move_lineEnd] at moved
  · have moved := position (c := .frameEnd) rfl
    rwa [move_frameEnd] at moved
  · exact ofGood state rfl nofun (by simp [Tracker.faultAt, inside, outside, geometry, lines])
  · exact ofGood (c := .pixel a b c) state rfl nofun (by simp [Tracker.faultAt, within, geometry, short])
  · exact ofGood state rfl nofun (by simp [Tracker.faultAt, within, geometry, full])
  · have none : r.faultAt .frameEnd = none := by simp [Tracker.faultAt, inside, outside, geometry, lines]
    obtain ⟨t, run, locked, kept, fault⟩ := exec_good (c := .frameEnd) receiving state rfl none
    refine ⟨t, run, locked, kept, fault, fun filter _ => ?_⟩
    have raised := exec_frameEnd_raises receiving run filter.truncStop (trackSymbol_good_raises state none)
    have events : (trackSymbol .frameEnd s).frameEvents false = s.frameEvents false := by
      obtain ⟨-, -, -, -, -, -, counter, -⟩ := move_frame r .frameEnd nofun
      rw [trackSymbol_good state none]
      exact frameEvents_congr (s := s) (t := { s with tracker := s.tracker.move .frameEnd }) rfl counter false
    rw [events] at raised
    exact raised.reports
  · have none : r.faultAt .frameEnd = none := by simp [Tracker.faultAt, inside, outside, geometry, lines]
    by_cases set : s.compositor.compositing = true
    · obtain ⟨t, run, compositor⟩ := exec_frameEnd_complete receiving state none set
      exact ⟨t, run, fun _ => compositor⟩
    · obtain ⟨t, run, -⟩ := exec_symbol (c := .frameEnd) rfl receiving
      exact ⟨t, run, fun unset => absurd unset set⟩
  · exact ofGood state rfl nofun (by simp [Tracker.faultAt, outside])
  · exact ofGood (c := .packetByte b) state rfl nofun (by simp [Tracker.faultAt, outside])
  · exact ofGood state rfl nofun (by simp [Tracker.faultAt, outside])
  · exact ofGood state rfl nofun rfl

end Sys2Proof.RasterTracking
end

section
/-! The measuring of a frame in ACQUIRING, and what its FRAME_END makes of the candidate and the count (R104, R105). -/

namespace Sys2Proof.Machine

section
variable {r : Tracker} {x : FwdSymbol}

/-! ### A symbol measured (R104) -/

theorem measure_judged (inside : r.inFrame = true) (regular : r.irregular = false) :
    (r.measure x).irregular = r.irregularAt x ∧ (r.measure x).matchCount = r.matchCount := by
  cases fails : r.irregularAt x with
  | true => simp [Tracker.measure, inside, regular, fails]
  | false =>
    rw [Tracker.measure, if_pos inside, if_neg (by simp [regular]), if_neg (by simp [fails])]
    split <;> exact ⟨regular, rfl⟩

/-- An irregular frame is not judged further. -/
theorem measure_irregular (inside : r.inFrame = true) (irregular : r.irregular = true) : r.measure x = r := by
  simp [Tracker.measure, inside, irregular]

/-- A stray raster symbol between frames. -/
theorem measure_stray (outside : r.inFrame = false) (raster : x.isRaster = true) : r.measure x = { r with matchCount := 0 } := by
  simp [Tracker.measure, outside, raster]

theorem measure_blanking (outside : r.inFrame = false) (packet : x.isRaster = false) : r.measure x = r := by
  simp [Tracker.measure, outside, packet]

theorem measure_matchCount (counted : r.inFrame = true ∨ x.isRaster = false) : (r.measure x).matchCount = r.matchCount := by
  cases frame : r.inFrame with
  | true =>
    cases mark : r.irregular with
    | true => rw [measure_irregular frame mark]
    | false => exact (measure_judged frame mark).2
  | false => rw [measure_blanking frame (counted.resolve_left (by simp [frame]))]

theorem irregularAt_lineEnd_first (absent : r.lengthMark = none) : r.irregularAt .lineEnd = false ↔
    r.inLine = true ∧ 16 ≤ r.pixelsInLine ∧ r.pixelsInLine ≤ 4096 := by
  simp [Tracker.irregularAt, absent, and_assoc]

/-- The length mark takes the length of the first line that passes, and stands through every other symbol. -/
theorem measure_lengthMark (x : FwdSymbol) : (r.measure x).lengthMark =
    if x = .lineEnd ∧ r.inFrame = true ∧ r.irregular = false ∧ r.inLine = true ∧ 16 ≤ r.pixelsInLine ∧ r.pixelsInLine ≤ 4096 ∧
      r.lengthMark = none then some r.pixelsInLine else r.lengthMark := by
  split
  · next first =>
    obtain ⟨rfl, inside, regular, line, low, high, absent⟩ := first
    have passes := (irregularAt_lineEnd_first absent).mpr ⟨line, low, high⟩
    simp [Tracker.measure, inside, regular, passes, absent]
  · next other =>
    unfold Tracker.measure
    split
    · next inside =>
      split
      · rfl
      · next regular =>
        split
        · rfl
        · next passes =>
          refine congrArg Tracker.lengthMark (if_neg fun first => other ?_)
          obtain ⟨rfl, absent⟩ := first
          obtain ⟨line, low, high⟩ := (irregularAt_lineEnd_first absent).mp (by simpa using passes)
          exact ⟨rfl, inside, by simpa using regular, line, low, high, absent⟩
    · split <;> rfl

/-! ### The end of a measured frame (R105) -/

theorem measure_frameEnd (inside : r.inFrame = true) :
    r.measure .frameEnd = { r with irregular := r.irregular || r.irregularAt .frameEnd } := by
  cases mark : r.irregular with
  | true => rw [measure_irregular inside mark, Bool.true_or, ← mark]
  | false =>
    cases fails : r.irregularAt .frameEnd with
    | true => simp [Tracker.measure, inside, mark, fails]
    | false =>
      rw [Tracker.measure, if_pos inside, if_neg (by simp [mark]), if_neg (by simp [fails]), if_neg (by simp),
        Bool.or_false, ← mark]

theorem after_frameEnd (state : r.rasterState = .acquiring) (inside : r.inFrame = true) : r.after .frameEnd =
    ({ r with irregular := r.irregular || r.irregularAt .frameEnd, inFrame := false, inLine := false } : Tracker).endMeasured := by
  simp only [Tracker.after, state, inside, and_self, if_true, measure_frameEnd, move_frameEnd]

/-- A frame that reaches its FRAME_END regular (R104). -/
theorem after_frameEnd_regular (state : r.rasterState = .acquiring) (inside : r.inFrame = true) (regular : r.irregular = false)
    (outside : r.inLine = false) (lines : 8 ≤ r.linesBegun) :
    r.after .frameEnd = ({ r with inFrame := false } : Tracker).endMeasured := by
  have passes : (r.irregular || r.irregularAt .frameEnd) = r.irregular := by
    simp [Tracker.irregularAt, regular, outside, lines]
  rw [after_frameEnd state inside, passes, ← outside]

theorem after_measured (state : r.rasterState = .acquiring) (going : x ≠ .frameEnd ∨ r.inFrame = false) :
    r.after x = (r.measure x).move x := by
  simp only [Tracker.after, state]
  exact if_neg fun last => going.elim (· last.1) fun outside => by simp [outside] at last

/-- A symbol that ends no measured frame leaves the tracker in ACQUIRING with its candidate. -/
theorem after_searching (state : r.rasterState = .acquiring) (hx : x ≠ .frameStart)
    (going : x ≠ .frameEnd ∨ r.inFrame = false) : (r.after x).rasterState = .acquiring ∧ (r.after x).candidate = r.candidate ∧
      (r.after x).matchCount = (r.measure x).matchCount ∧ (r.after x).lengthMark = (r.measure x).lengthMark ∧
      (r.after x).irregular = (r.measure x).irregular := by
  obtain ⟨same, candidate, -⟩ := measure_frame r x
  obtain ⟨moved, stands, count, -, mark, irregular, -⟩ := move_frame (r.measure x) x hx
  rw [after_measured state going]
  exact ⟨moved.trans (same.trans state), stands.trans candidate, count, mark, irregular⟩

theorem endMeasured_irregular (irregular : r.irregular = true) : r.endMeasured = { r with matchCount := 0 } := by
  simp [Tracker.endMeasured, irregular]

section
variable {w : Nat} (regular : r.irregular = false) (mark : r.lengthMark = some w)
include regular mark

theorem endMeasured_other (other : r.candidate ≠ some ⟨w, r.linesBegun⟩) :
    r.endMeasured = { r with candidate := some ⟨w, r.linesBegun⟩, matchCount := 1 } := by
  simp [Tracker.endMeasured, regular, mark, other]

theorem endMeasured_first (same : r.candidate = some ⟨w, r.linesBegun⟩) (count : r.matchCount = 0) :
    r.endMeasured = { r with matchCount := 1 } := by
  simp [Tracker.endMeasured, regular, mark, same, count]

theorem endMeasured_locks (same : r.candidate = some ⟨w, r.linesBegun⟩) (count : r.matchCount = 1) :
    r.endMeasured = { r with rasterState := .locked, locked := some ⟨w, r.linesBegun⟩, matchCount := 2 } := by
  simp [Tracker.endMeasured, regular, mark, same, count]

end

end

/-! ### Commands and the symbols they bring -/

section
variable {c : Instr} {x : FwdSymbol} (symbol : symbolOf c = some x)
include symbol

theorem symbolOf_eq_lineEnd : x = .lineEnd ↔ c = .lineEnd := by
  cases c <;> simp only [symbolOf, reduceCtorEq, Option.some.injEq] at symbol <;> subst symbol <;> simp

theorem symbolOf_eq_frameEnd : x = .frameEnd ↔ c = .frameEnd := by
  cases c <;> simp only [symbolOf, reduceCtorEq, Option.some.injEq] at symbol <;> subst symbol <;> simp

theorem isRaster_of_rasterOf : x.isRaster = (rasterOf c).isSome := by
  cases c <;> simp only [symbolOf, reduceCtorEq, Option.some.injEq] at symbol <;> subst symbol <;> rfl

end

end Sys2Proof.Machine

namespace Sys2Proof.RasterTracking

open Sys2Proof.Machine

/-- Settles O49: a symbol is measured and then moves the position, and the FRAME_END of a frame has one outcome for an irregular frame
and three for a regular one. -/
theorem measuredFramesLock : Obligations.MeasuredFramesLock := by
  unfold Obligations.MeasuredFramesLock
  intro s receiving legal state r judged ended
  have absent : r.locked = none := locked_absent legal (.inr state)
  have judge : ∀ {c : Instr} {x : FwdSymbol} {bad : Prop}, r.inFrame = true → r.irregular = false → symbolOf c = some x →
      c ≠ .frameEnd → (r.irregularAt x = true ↔ bad) → judged c bad := by
    intro c x bad inside regular symbol going test
    obtain ⟨t, run, tracker⟩ := exec_symbol symbol receiving
    obtain ⟨acquiring, candidate, count, -, irregular⟩ :=
      after_searching state (symbolOf_ne_frameStart symbol) (.inl ((symbolOf_eq_frameEnd symbol).not.mpr going))
    obtain ⟨fails, stands⟩ := measure_judged (x := x) inside regular
    refine ⟨t, run, ?_, ?_, ?_, ?_⟩ <;> rw [tracker]
    · rw [irregular, fails, test]
    · exact acquiring
    · exact candidate
    · exact count.trans stands
  have ends : ∀ {l : List Event}, s.Raises l (trackSymbol .frameEnd s) → ended (r.after .frameEnd).rasterState
      (r.after .frameEnd).candidate (r.after .frameEnd).matchCount (r.after .frameEnd).locked l := by
    intro l tracked
    obtain ⟨t, run, tracker⟩ := exec_symbol (c := .frameEnd) rfl receiving
    refine ⟨t, run, by rw [tracker], by rw [tracker], by rw [tracker], by rw [tracker], fun filter compositor => ?_⟩
    refine (exec_symbol_raises (c := .frameEnd) rfl receiving run filter.truncStop (.inl nofun) (fun _ => ?_) tracked).reports
    refine trackSymbol_unset (Bool.eq_false_iff.mpr fun set => ?_) _
    have locked := (compositor.flag set).1
    rw [state] at locked
    cases locked
  have endsAcquiring : (r.after .frameEnd).rasterState = .acquiring → ended .acquiring (r.after .frameEnd).candidate
      (r.after .frameEnd).matchCount (r.after .frameEnd).locked [] := by
    intro same
    have quiet := ends (trackSymbol_raises_nothing (same.trans state.symm) nofun)
    rwa [same] at quiet
  refine ⟨fun inside regular => ⟨?_, fun a b c => ?_, ?_, ?_, fun b => ?_, ?_, ?_⟩, fun c symbol going => ?_,
    fun outside c stray => ?_, fun inside fails => ?_, fun w inside regular outside lines mark =>
      ⟨fun other => ?_, fun same count => ?_, fun same count => ?_⟩⟩
  · exact judge inside regular rfl nofun (by simp [Tracker.irregularAt])
  · exact judge (c := .pixel a b c) inside regular rfl nofun (by simp [Tracker.irregularAt])
  · refine judge inside regular rfl nofun ?_
    cases mark : r.lengthMark <;> simp [Tracker.irregularAt, mark, or_assoc]
  · exact judge inside regular rfl nofun Iff.rfl
  · exact judge (c := .packetByte b) inside regular rfl nofun Iff.rfl
  · exact judge inside regular rfl nofun Iff.rfl
  · exact judge inside regular rfl nofun (by simp [Tracker.irregularAt])
  · obtain ⟨x, symbol⟩ := Option.isSome_iff_exists.mp symbol
    have hx := symbolOf_ne_frameStart symbol
    obtain ⟨t, run, tracker⟩ := exec_symbol symbol receiving
    obtain ⟨acquiring, candidate, count, mark, irregular⟩ :=
      after_searching state hx (.inl ((symbolOf_eq_frameEnd symbol).not.mpr going))
    simp only [measure_lengthMark, symbolOf_eq_lineEnd symbol] at mark
    rw [← tracker] at acquiring candidate count mark irregular
    refine ⟨t, run, acquiring, candidate, mark, fun inside set => ?_, fun counted => ?_, fun filter undecided => ?_⟩
    · rw [irregular, measure_irregular inside set, set]
    · rw [count, measure_matchCount (counted.imp_right fun packet => by simp [isRaster_of_rasterOf symbol, packet])]
    · have quiet := trackSymbol_raises_nothing (s := s) (x := x) (by rw [← tracker, acquiring, state]) hx
      exact (exec_symbol_raises symbol receiving run filter.truncStop undecided (fun last => absurd last going) quiet).reports
  · have strays : ∀ {x : FwdSymbol}, symbolOf c = some x → x.isRaster = true →
        ∃ t, exec c s = .next t ∧ t.tracker.matchCount = 0 ∧ t.tracker.candidate = r.candidate := by
      intro x symbol raster
      obtain ⟨t, run, tracker⟩ := exec_symbol symbol receiving
      obtain ⟨-, candidate, count, -⟩ := after_searching state (symbolOf_ne_frameStart symbol) (.inr outside)
      rw [measure_stray outside raster] at count
      rw [← tracker] at candidate count
      exact ⟨t, run, count, candidate⟩
    rcases stray with rfl | ⟨a, b, d, rfl⟩ | rfl | rfl
    · exact strays rfl rfl
    · exact strays (x := .pixel ⟨a, b, d⟩) rfl rfl
    · exact strays rfl rfl
    · exact strays rfl rfl
  · have irregular : (r.irregular || r.irregularAt .frameEnd) = true := by simpa [Tracker.irregularAt] using fails
    have after := (after_frameEnd state inside).trans (endMeasured_irregular irregular)
    rw [after, absent] at endsAcquiring
    exact endsAcquiring state
  · have after := (after_frameEnd_regular state inside regular outside lines).trans (endMeasured_other regular mark other)
    rw [after, absent] at endsAcquiring
    exact endsAcquiring state
  · have after := (after_frameEnd_regular state inside regular outside lines).trans (endMeasured_first regular mark same count)
    rw [after, absent] at endsAcquiring
    exact endsAcquiring state
  · have after := (after_frameEnd_regular state inside regular outside lines).trans (endMeasured_locks regular mark same count)
    have locks := ends (trackSymbol_raises_lock state inside (by rw [after]))
    have event : (r.after .frameEnd).rasterEvent = ⟨.locked, r.candidate, s.lastFault, r.frameCounter⟩ := by
      rw [after, same]
      rfl
    rw [event, after, ← same] at locks
    exact locks

end Sys2Proof.RasterTracking
end

section
/-! The hold queue and its filter as an arriving symbol finds and leaves them (R120 to R130): the parts of the queue, the head that leaves
in a slot of FWD_OUT, and the filter after each symbol. -/

set_option Elab.async false

namespace Sys2Proof.Machine

/-! ### Released and held symbols -/

section
variable (q r : List QueuedSymbol)

@[simp] theorem releasedPart_append : releasedPart (q ++ r) = releasedPart q ++ releasedPart r := List.filter_append q r

@[simp] theorem heldPart_append : heldPart (q ++ r) = heldPart q ++ heldPart r := List.filter_append q r

@[simp] theorem heldPart_releaseHeld : heldPart (releaseHeld q) = [] := by simp [heldPart, releaseHeld]

@[simp] theorem releasedPart_releaseHeld : releasedPart (releaseHeld q) = releaseHeld q := by simp [releasedPart, releaseHeld]

@[simp] theorem heldPart_idleHeld : heldPart (idleHeld q) = [] := by
  simp only [heldPart, idleHeld, List.filter_eq_nil_iff, List.mem_map]
  rintro _ ⟨e, -, rfl⟩
  split
  · simp
  · assumption

@[simp] theorem length_releaseHeld : (releaseHeld q).length = q.length := List.length_map _

@[simp] theorem length_idleHeld : (idleHeld q).length = q.length := List.length_map _

@[simp] theorem symbols_releaseHeld : (releaseHeld q).map QueuedSymbol.symbol = q.map QueuedSymbol.symbol := by
  simp [releaseHeld]

@[simp] theorem heldBytes_append : heldBytes (q ++ r) = heldBytes q ++ heldBytes r := by
  induction q using heldBytes.induct with
  | case1 => rfl
  | case2 b q ih => exact congrArg (b :: ·) ih
  | case3 e q other ih =>
    rw [List.cons_append, heldBytes.eq_3 _ _ other, heldBytes.eq_3 _ _ other]
    exact ih

end

@[simp] theorem heldPart_one_held (x : FwdSymbol) : heldPart [⟨x, true⟩] = [⟨x, true⟩] := rfl
@[simp] theorem heldPart_one_released (x : FwdSymbol) : heldPart [⟨x, false⟩] = [] := rfl
@[simp] theorem heldBytes_one_released (x : FwdSymbol) : heldBytes [⟨x, false⟩] = [] := heldBytes.eq_3 _ _ (by simp)
@[simp] theorem heldBytes_one_byte (b : Byte) : heldBytes [⟨.packetByte b, true⟩] = [b] := rfl

/-- The symbols of a packet in HOLDING: its PACKET_START and its bytes, all held (R121). -/
def heldPacket (bytes : List Byte) : List QueuedSymbol := ⟨.packetStart, true⟩ :: bytes.map fun b => ⟨.packetByte b, true⟩

section
variable (bytes : List Byte)

@[simp] theorem heldPart_heldPacket : heldPart (heldPacket bytes) = heldPacket bytes := by
  refine List.filter_eq_self.mpr fun e he => ?_
  simp only [heldPacket, List.mem_cons, List.mem_map] at he
  rcases he with rfl | ⟨b, -, rfl⟩ <;> rfl

@[simp] theorem releasedPart_heldPacket : releasedPart (heldPacket bytes) = [] := by
  refine List.filter_eq_nil_iff.mpr fun e he => ?_
  simp only [heldPacket, List.mem_cons, List.mem_map] at he
  rcases he with rfl | ⟨b, -, rfl⟩ <;> simp

@[simp] theorem heldBytes_heldPacket : heldBytes (heldPacket bytes) = bytes := by
  have held : heldBytes (bytes.map fun b => ⟨.packetByte b, true⟩) = bytes := by
    induction bytes with
    | nil => rfl
    | cons b bytes ih => exact congrArg (b :: ·) ih
  rw [heldPacket, heldBytes.eq_3 _ _ (by simp), held]

@[simp] theorem length_heldPacket : (heldPacket bytes).length = bytes.length + 1 := by simp [heldPacket]

theorem heldPacket_append (b : Byte) : heldPacket (bytes ++ [b]) = heldPacket bytes ++ [⟨.packetByte b, true⟩] := by
  simp [heldPacket]

end

section
variable {q : List QueuedSymbol}

theorem heldPart_tail (h : heldPart q = []) : heldPart q.tail = [] :=
  List.filter_eq_nil_iff.mpr fun e he => List.filter_eq_nil_iff.mp h e (List.mem_of_mem_tail he)

theorem held_false_of_heldPart (h : heldPart q = []) {e : QueuedSymbol} (he : e ∈ q) : e.held = false := by
  simpa using List.filter_eq_nil_iff.mp h e he

/-- With nothing held every symbol is a released one. -/
theorem releasedPart_of_heldPart (h : heldPart q = []) : releasedPart q = q :=
  List.filter_eq_self.mpr fun e he => by simp [held_false_of_heldPart h he]

theorem releaseHeld_of_heldPart (h : heldPart q = []) : releaseHeld q = q := by
  refine (List.map_congr_left fun e he => ?_).trans (List.map_id q)
  rw [← held_false_of_heldPart h he]
  rfl

theorem heldBytes_of_heldPart (h : heldPart q = []) : heldBytes q = [] := by
  induction q using heldBytes.induct with
  | case1 => rfl
  | case2 b q ih => simp [heldPart] at h
  | case3 e q other ih =>
    rw [heldBytes.eq_3 _ _ other]
    exact ih (List.filter_eq_nil_iff.mpr fun x hx => List.filter_eq_nil_iff.mp h x (by simp [hx]))

end

/-! ### The head that leaves in a slot (R129) -/

/-- The hold queue behind a slot of FWD_OUT: a released head has left. -/
def afterSlot : List QueuedSymbol → List QueuedSymbol
  | [] => []
  | e :: q => if e.held then e :: q else q

theorem outputSlot_filter (s : State) :
    (outputSlot s).filter = { s.filter with holdQueue := afterSlot s.filter.holdQueue } := by
  unfold outputSlot afterSlot
  cases waits : s.filter.holdQueue with
  | nil => exact congrArg (fun q => ({ s.filter with holdQueue := q } : Filter)) waits
  | cons e q =>
    dsimp only
    split
    · exact congrArg (fun q => ({ s.filter with holdQueue := q } : Filter)) waits
    · simp [send]

section
variable (q : List QueuedSymbol)

@[simp] theorem heldPart_afterSlot : heldPart (afterSlot q) = heldPart q := by
  unfold afterSlot
  split
  · rfl
  · split
    · rfl
    · next head => simp [heldPart, head]

@[simp] theorem heldBytes_afterSlot : heldBytes (afterSlot q) = heldBytes q := by
  unfold afterSlot
  split
  · rfl
  · next e q =>
    split
    · rfl
    · next head =>
      obtain ⟨x, h⟩ := e
      rw [heldBytes.eq_3 _ _ (by rintro b ⟨⟩; exact head rfl)]

theorem length_afterSlot_le : (afterSlot q).length ≤ q.length := by
  unfold afterSlot
  split
  · exact Nat.le_refl 0
  · split <;> simp

end

section
variable {q r h : List QueuedSymbol}

/-- The slot takes the first of the released symbols, which stand in front of the held ones. -/
theorem afterSlot_append (released : heldPart r = []) (held : releasedPart h = []) : afterSlot (r ++ h) = r.tail ++ h := by
  cases r with
  | cons e r => simp [afterSlot, held_false_of_heldPart released (e := e) (by simp)]
  | nil =>
    cases h with
    | nil => rfl
    | cons e h =>
      have : e.held = true := by simpa using List.filter_eq_nil_iff.mp held e (by simp)
      simp [afterSlot, this]

@[simp] theorem heldPart_releasedPart : heldPart (releasedPart q) = [] := by
  simp [heldPart, releasedPart, List.filter_filter]

@[simp] theorem releasedPart_heldPart : releasedPart (heldPart q) = [] := by
  simp [heldPart, releasedPart, List.filter_filter]

/-- The held symbols stand behind the released ones. -/
def Ordered (q : List QueuedSymbol) : Prop := q = releasedPart q ++ heldPart q

theorem Ordered.afterSlot_eq (order : Ordered q) : afterSlot q = (releasedPart q).tail ++ heldPart q := by
  conv_lhs => rw [order]
  exact afterSlot_append heldPart_releasedPart releasedPart_heldPart

end

end Sys2Proof.Machine
end

section
/-! The packet filter behind each symbol, as a function of the filter alone (R121 to R128), as Laws/Tracker.lean says for the tracker. -/

set_option Elab.async false

namespace Sys2Proof.Machine

/-! ### The filter's operations -/

/-- A symbol at the tail of the hold queue. -/
def Filter.joined (x : FwdSymbol) (held : Bool) (f : Filter) : Filter := { f with holdQueue := f.holdQueue ++ [⟨x, held⟩] }

/-- A packet opened in a reception state. -/
def Filter.opened (r : Reception) (f : Filter) : Filter := { f with reception := r, byteCount := 0, kindKnown := .no }

/-- Every held symbol released. -/
def Filter.released (f : Filter) : Filter := { f with holdQueue := releaseHeld f.holdQueue }

/-- A packet counted as truncated. -/
def Filter.truncated (f : Filter) : Filter := { f with truncTally := satSucc 65535 f.truncTally }

/-- The open packet ended by a raster symbol, a PACKET_START or link down (R127, R132). -/
def Filter.ended (f : Filter) : Filter :=
  match f.reception with
  | .none => f
  | .holding => (f.released.opened .none).truncated
  | .overlong => (f.opened .none).truncated
  | .unexamined => f.opened .none

/-- A PACKET_START; `holds` says whether the packet it opens is held (R119, R121, R128). -/
def Filter.started (holds : Bool) (f : Filter) : Filter :=
  (f.ended.opened (if holds then .holding else .unexamined)).joined .packetStart holds

/-- A PACKET_BYTE of a held packet (R122, R123). -/
def Filter.heldByte (b : Byte) (f : Filter) : Filter :=
  if 256 ≤ f.byteCount then
    { f.released with reception := .overlong, byteCount := 257, kindKnown := .no }.joined (.packetByte b) false
  else if f.byteCount = 0 then
    if b = kindCommand then { f.joined (.packetByte b) true with byteCount := 1, kindKnown := .command }
    else { (f.joined (.packetByte b) true).released with reception := .unexamined, byteCount := 0, kindKnown := .other }
  else { f.joined (.packetByte b) true with byteCount := f.byteCount + 1 }

/-- A PACKET_BYTE (R121). -/
def Filter.byteTaken (b : Byte) (f : Filter) : Filter :=
  if f.reception = .holding then f.heldByte b else f.joined (.packetByte b) false

/-- The PACKET_END of a held packet, in a unit at this address (R124 to R126). -/
def Filter.decided (address : BitVec 4) (f : Filter) : Filter :=
  let g := (f.joined .packetEnd true).opened .none
  match checkPacket (heldBytes f.holdQueue) with
  | .badLength => g.released.truncated
  | .badCrc => { g.released with crcTally := satSucc 65535 f.crcTally }
  | .good dest _ _ _ =>
    if dest ≠ 15 ∧ dest = address then { g with holdQueue := idleHeld g.holdQueue } else g.released

/-- A PACKET_END (R121, R124). -/
def Filter.packetEnded (address : BitVec 4) (f : Filter) : Filter :=
  match f.reception with
  | .none => f.joined .packetEnd false
  | .holding => f.decided address
  | .overlong => ((f.joined .packetEnd false).opened .none).truncated
  | .unexamined => (f.joined .packetEnd false).opened .none

/-- The filter behind a symbol, before the slot of FWD_OUT that goes with it. -/
def Filter.after (holds : Bool) (address : BitVec 4) (x : FwdSymbol) (f : Filter) : Filter :=
  match x with
  | .packetStart => f.started holds
  | .packetByte b => f.byteTaken b
  | .packetEnd => f.packetEnded address
  | .idle => if f.holdQueue = [] then f.joined .idle false else f
  | .frameStart | .lineStart | .pixel _ | .lineEnd | .frameEnd => f.ended.joined x false

/-- A packet that starts now is held: outside a line, in an addressed unit (R119, R128). -/
def State.holdsPackets (s : State) : Bool := !s.tracker.inLine && s.addressed

/-! ### The filter in the state -/

section
variable (s : State)

theorem endOpenPacket_filter : (endOpenPacket s).filter = s.filter.ended := by
  unfold endOpenPacket Filter.ended
  cases s.filter.reception <;> rfl

theorem filterRaster_filter {x : FwdSymbol} (raster : x.isRaster = true) (holds : Bool) (address : BitVec 4) :
    (filterRaster x s).filter = s.filter.after holds address x := by
  have joined : (filterRaster x s).filter = s.filter.ended.joined x false := by
    rw [← endOpenPacket_filter]
    rfl
  rw [joined]
  cases x <;> simp only [FwdSymbol.isRaster, Bool.false_eq_true] at raster <;> rfl

theorem filterPacketStart_filter (address : BitVec 4) :
    (filterPacketStart s).filter = s.filter.after s.holdsPackets address .packetStart := by
  have same : ((endOpenPacket s).tracker.inLine || !(endOpenPacket s).addressed) = !s.holdsPackets := by
    simp [State.holdsPackets, State.addressed]
  simp only [filterPacketStart, Filter.after, Filter.started, ← endOpenPacket_filter, same]
  cases s.holdsPackets <;> rfl

theorem filterPacketByte_filter (b : Byte) (holds : Bool) (address : BitVec 4) :
    (filterPacketByte b s).filter = s.filter.after holds address (.packetByte b) := by
  simp only [Filter.after, Filter.byteTaken, filterPacketByte]
  cases reception : s.filter.reception with
  | holding =>
    simp only [if_true, Filter.heldByte, holdByte, Config.packetBytes]
    split
    · rfl
    · split
      · next first =>
        split
        · simp [join, Filter.joined, first]
        · rfl
      · rfl
  | none => rfl
  | overlong => rfl
  | unexamined => rfl

/-- The state in which a held packet's command is taken or the packet passes: its PACKET_END joined and the packet closed. -/
def State.packetClosed : State := closePacket (join .packetEnd true s)

section
variable {s : State} {dest : BitVec 4} {seq code : Byte} {p : List Byte}

theorem decidePacket_badLength (check : checkPacket (heldBytes s.filter.holdQueue) = .badLength) :
    decidePacket s = countTruncated (releaseAll s.packetClosed) := by
  simp only [decidePacket, check, State.packetClosed]

theorem decidePacket_badCrc (check : checkPacket (heldBytes s.filter.holdQueue) = .badCrc) :
    decidePacket s = countCrc (releaseAll s.packetClosed) := by
  simp only [decidePacket, check, State.packetClosed]

theorem decidePacket_broadcast (check : checkPacket (heldBytes s.filter.holdQueue) = .good 15 seq code p) :
    decidePacket s = handOver .broadcast seq code p (releaseAll s.packetClosed) := by
  simp only [decidePacket, check, State.packetClosed, if_true]

theorem decidePacket_own (check : checkPacket (heldBytes s.filter.holdQueue) = .good s.unitAddress seq code p)
    (one : s.unitAddress ≠ 15) : decidePacket s = handOver .unicast seq code p (removeHeld s.packetClosed) := by
  simp only [decidePacket, check, State.packetClosed, if_neg one, if_true]

theorem decidePacket_other (check : checkPacket (heldBytes s.filter.holdQueue) = .good dest seq code p)
    (one : dest ≠ 15) (other : dest ≠ s.unitAddress) : decidePacket s = releaseAll s.packetClosed := by
  simp only [decidePacket, check, State.packetClosed, if_neg one, if_neg other]

end

theorem decidePacket_filter : (decidePacket s).filter = s.filter.decided s.unitAddress := by
  unfold Filter.decided
  cases check : checkPacket (heldBytes s.filter.holdQueue) with
  | badLength => rw [decidePacket_badLength check]; rfl
  | badCrc => rw [decidePacket_badCrc check]; rfl
  | good dest seq code p =>
    dsimp only
    by_cases all : dest = 15
    · rw [decidePacket_broadcast (all ▸ check), (handOver_front _ _ _ _ _).filter, if_neg (by simp [all])]
      rfl
    · by_cases own : dest = s.unitAddress
      · rw [decidePacket_own (own ▸ check) (own ▸ all), (handOver_front _ _ _ _ _).filter, if_pos ⟨all, own⟩]
        rfl
      · rw [decidePacket_other check all own, if_neg (by simp [own])]
        rfl

theorem filterPacketEnd_filter (holds : Bool) :
    (filterPacketEnd s).filter = s.filter.after holds s.unitAddress .packetEnd := by
  simp only [Filter.after, Filter.packetEnded, filterPacketEnd]
  cases s.filter.reception with
  | holding => exact decidePacket_filter s
  | none => rfl
  | overlong => rfl
  | unexamined => rfl

theorem filterIdle_filter (holds : Bool) (address : BitVec 4) :
    (filterIdle s).filter = s.filter.after holds address .idle := by
  simp only [Filter.after, filterIdle]
  split <;> rfl

end

end Sys2Proof.Machine
end

section
/-! What any command can do to the forward channel, said once: nothing, a symbol taken with its slot of FWD_OUT, a link down or up, a
drain's end, RESET_N asserted, or a hard reset's end (R116 to R132). -/

set_option Elab.async false

namespace Sys2Proof.Machine

/-- The two states agree on the pins, the links, the drains, what FWD_OUT has carried and the waiting commands, and what RET_OUT had
sent stands: all of the forward channel but the filter. -/
structure SameOutput (s t : State) : Prop where
  resetAsserted : t.resetAsserted = s.resetAsserted
  unitAddress : t.unitAddress = s.unitAddress
  fwdInUp : t.fwdInUp = s.fwdInUp
  fwdOutUp : t.fwdOutUp = s.fwdOutUp
  drains : t.drains = s.drains
  fwdSent : t.fwdSent = s.fwdSent
  pending : t.pending = s.pending
  returned : s.retSent <+: t.retSent

/-- An operation that touches none of them. -/
theorem SameOutput.untouched {s t : State}
    (same : (t.resetAsserted, t.unitAddress, t.fwdInUp, t.fwdOutUp, t.drains, t.fwdSent, t.pending, t.retSent) =
      (s.resetAsserted, s.unitAddress, s.fwdInUp, s.fwdOutUp, s.drains, s.fwdSent, s.pending, s.retSent)) : SameOutput s t := by
  simp only [Prod.mk.injEq] at same
  obtain ⟨reset, address, input, output, drains, sent, pending, returned⟩ := same
  exact ⟨reset, address, input, output, drains, sent, pending, returned ▸ List.prefix_rfl⟩

theorem SameOutput.refl (s : State) : SameOutput s s := .untouched rfl

theorem SameOutput.trans {s t u : State} (a : SameOutput s t) (b : SameOutput t u) : SameOutput s u :=
  ⟨b.resetAsserted.trans a.resetAsserted, b.unitAddress.trans a.unitAddress, b.fwdInUp.trans a.fwdInUp,
    b.fwdOutUp.trans a.fwdOutUp, b.drains.trans a.drains, b.fwdSent.trans a.fwdSent, b.pending.trans a.pending,
    a.returned.trans b.returned⟩

theorem SameOutput.receiving {s t : State} (a : SameOutput s t) : t.receiving = s.receiving := by
  simp only [State.receiving, a.resetAsserted, a.fwdInUp]

theorem SameFront.output {s t : State} (front : SameFront s t) : SameOutput s t :=
  ⟨front.resetAsserted, front.unitAddress, front.fwdInUp, front.fwdOutUp, front.drains, front.fwdSent, front.pending,
    front.retSent ▸ List.prefix_rfl⟩

/-- The command brings a symbol of FWD_IN. -/
abbrev BringsSymbol (c : Instr) : Prop :=
  (rasterOf c).isSome = true ∨ c = .packetStart ∨ (∃ b, c = .packetByte b) ∨ c = .packetEnd ∨ c = .idle

/-- What one command does to the forward channel. -/
inductive ChannelEffect (c : Instr) (s t : State) : Prop
  /-- Nothing: no symbol, or one that is not taken. -/
  | still (output : SameOutput s t) (filter : t.filter = s.filter) (line : t.tracker.inLine = s.tracker.inLine)
      (quiet : s.receiving = true → ¬BringsSymbol c)
  /-- A symbol taken, a PIXEL with its outgoing value. -/
  | symbol (x : FwdSymbol) (u : State) (receiving : s.receiving = true) (kind : x.rasterKind = rasterOf c)
      (other : x.isRaster = false → symbolOf c = some x)
      (output : SameOutput s u) (filter : u.filter = s.filter.after s.holdsPackets s.unitAddress x)
      (line : x.isRaster = false → u.tracker.inLine = s.tracker.inLine) (eq : t = outputSlot u)
  /-- A link down. -/
  | linkDown (u : State) (row : c = .forwardLinkDown) (receiving : s.receiving = true)
      (output : SameOutput { s with fwdInUp := false } u) (filter : u.filter = s.filter.ended) (eq : t = beginDrain u)
  /-- A link up. -/
  | linkUp (row : c = .forwardLinkUp) (released : s.resetAsserted = false) (down : s.fwdInUp = false)
      (eq : t = gainForwardLink s)
  /-- The end of a drain. -/
  | drained (n : Nat) (rest : List Nat) (row : c = .drainEnd) (drains : s.drains = n :: rest)
      (eq : t = finishDrain rest (sendFirst n s))
  /-- RESET_N asserted. -/
  | asserted (row : c = .resetAssert) (released : s.resetAsserted = false) (eq : t = assertReset s)
  /-- RESET_N released. -/
  | release (straps : BitVec 4) (row : c = .resetRelease straps)
      (eq : t = hardReset straps (ensureDown (sendFirst s.filter.holdQueue.length s)))
  /-- Power-up. -/
  | power (straps : BitVec 4) (row : c = .powerUp straps) (eq : t = hardReset straps (ensureDown s))

/-! ### Symbols -/

/-- A packet symbol and an IDLE move no position. -/
theorem trackSymbol_inLine {x : FwdSymbol} (other : x.isRaster = false) (s : State) :
    (trackSymbol x s).tracker.inLine = s.tracker.inLine := by
  have still : s.tracker.move x = s.tracker := by
    cases x <;> simp only [FwdSymbol.isRaster, Bool.true_eq_false] at other <;> rfl
  obtain ⟨-, line, -⟩ := after_position s.tracker x (by rintro rfl; cases other)
  rw [trackSymbol_tracker, line, still]

theorem trackSymbol_holdsPackets {x : FwdSymbol} (other : x.isRaster = false) (s : State) :
    (trackSymbol x s).holdsPackets = s.holdsPackets := by
  simp [State.holdsPackets, State.addressed, trackSymbol_inLine other]

theorem trackSymbol_output (x : FwdSymbol) (s : State) : SameOutput s (trackSymbol x s) := by constructor <;> simp

theorem countTruncated_output (s : State) : SameOutput s (countTruncated s) := by constructor <;> simp

theorem countCrc_output (s : State) : SameOutput s (countCrc s) := by constructor <;> simp

theorem filterPacketEnd_output (s : State) : SameOutput s (filterPacketEnd s) := by
  have closed : SameOutput s (releaseAll (closePacket (join .packetEnd true s))) := .untouched rfl
  have removed : SameOutput s (removeHeld (closePacket (join .packetEnd true s))) := .untouched rfl
  have passed : SameOutput s (closePacket (join .packetEnd false s)) := .untouched rfl
  unfold filterPacketEnd
  split
  · exact .untouched rfl
  · unfold decidePacket
    dsimp only
    split
    · exact closed.trans (countTruncated_output _)
    · exact closed.trans (countCrc_output _)
    · split
      · exact closed.trans (handOver_front _ _ _ _ _).output
      · split
        · exact removed.trans (handOver_front _ _ _ _ _).output
        · exact closed
  · exact passed.trans (countTruncated_output _)
  · exact passed

/-- A raster symbol taken, its value as it stands behind the tracker, whatever the compositor does after the filter. -/
theorem ChannelEffect.raster {c : Instr} {s : State} {f : State → State} (x : FwdSymbol) (raster : x.isRaster = true)
    (kind : x.rasterKind = rasterOf c) (output : SameOutput s (f s)) (filter : (f s).filter = (filterRaster x s).filter) :
    ChannelEffect c s (onSymbol f s) := by
  cases receiving : s.receiving with
  | true =>
    rw [onSymbol_receiving _ _ receiving]
    exact .symbol x (f s) receiving kind (fun other => by rw [raster] at other; cases other) output
      (filter.trans (filterRaster_filter s raster _ _))
      (fun other => by rw [raster] at other; cases other) rfl
  | false =>
    rw [onSymbol_deaf _ _ receiving]
    exact .still (SameOutput.refl s) rfl rfl (fun on => by rw [receiving] at on; cases on)

/-- A packet symbol or an IDLE taken, by the filter behind the tracker. -/
theorem ChannelEffect.other {c : Instr} {s : State} {f : State → State} (x : FwdSymbol) (other : x.isRaster = false)
    (kind : x.rasterKind = rasterOf c) (row : symbolOf c = some x) (output : ∀ u, SameOutput u (f u))
    (line : ∀ u, (f u).tracker = u.tracker)
    (filter : ∀ u, (f u).filter = u.filter.after u.holdsPackets u.unitAddress x) :
    ChannelEffect c s (onSymbol (fun u => f (trackSymbol x u)) s) := by
  cases receiving : s.receiving with
  | true =>
    rw [onSymbol_receiving _ _ receiving]
    refine .symbol x _ receiving kind (fun _ => row) ((trackSymbol_output x s).trans (output _)) ?_ (fun _ => ?_) rfl
    · rw [filter, trackSymbol_filter, trackSymbol_holdsPackets other, trackSymbol_unitAddress]
    · rw [line, trackSymbol_inLine other]
  | false =>
    rw [onSymbol_deaf _ _ receiving]
    exact .still (SameOutput.refl s) rfl rfl (fun on => by rw [receiving] at on; cases on)

/-- The packet that a raster symbol ends behind the tracker is the one that stood open. -/
theorem filterRaster_filter_congr {s u : State} (same : u.filter = s.filter) (x : FwdSymbol) :
    (filterRaster x u).filter = (filterRaster x s).filter := by
  have joined : ∀ v : State, (filterRaster x v).filter = v.filter.ended.joined x false := fun v => by
    rw [← endOpenPacket_filter]
    rfl
  rw [joined, joined, same]

/-! ### Any command -/

/-- Every command's effect on the forward channel is one of these. -/
theorem exec_channel {c : Instr} {s t : State} (run : exec c s = .next t) : ChannelEffect c s t := by
  cases hc : carried c with
  | some packet =>
    obtain ⟨how, seq, code, p⟩ := packet
    rw [exec_host hc] at run
    obtain rfl := Host.Outcome.next.inj run
    have none : ¬BringsSymbol c := by cases c <;> simp [carried, rasterOf, BringsSymbol] at hc ⊢
    unfold takeCommand
    split
    · have front := handOver_front how seq code p s
      exact .still front.output front.filter (by rw [front.tracker]) (fun _ => none)
    · exact .still (SameOutput.refl s) rfl rfl (fun _ => none)
  | none =>
    have next : ∀ u : State, Host.Outcome.next u = (Host.Outcome.next t : Result) → ChannelEffect c s u → ChannelEffect c s t :=
      fun u same effect => Host.Outcome.next.inj same ▸ effect
    have still : ∀ u : State, SameOutput s u → u.filter = s.filter → u.tracker = s.tracker →
        (silent : ¬BringsSymbol c := by simp [BringsSymbol, rasterOf]) → ChannelEffect c s u :=
      fun u output filter tracker silent => .still output filter (by rw [tracker]) (fun _ => silent)
    cases c <;> simp only [carried, reduceCtorEq] at hc
    case frameStart =>
      exact next _ run (.raster .frameStart rfl rfl (by constructor <;> simp [takeFrameStart])
        (filterRaster_filter_congr (by simp) _))
    case lineStart =>
      refine next _ run (.raster .lineStart rfl rfl (by constructor <;> simp [takeLineStart]) ?_)
      simpa [takeLineStart] using filterRaster_filter_congr (by simp) .lineStart
    case pixel c0 c1 c2 =>
      exact next _ run (.raster _ rfl rfl (by constructor <;> simp [takePixel]) (filterRaster_filter_congr (by simp) _))
    case lineEnd =>
      exact next _ run (.raster .lineEnd rfl rfl (by constructor <;> simp [takeLineEnd])
        (filterRaster_filter_congr (by simp) _))
    case frameEnd =>
      refine next _ run (.raster .frameEnd rfl rfl (by constructor <;> simp [takeFrameEnd]) ?_)
      simpa [takeFrameEnd] using filterRaster_filter_congr (by simp) .frameEnd
    case packetStart =>
      exact next _ run (.other .packetStart rfl rfl rfl (fun u => by constructor <;> simp) (fun u => by simp)
        (fun u => filterPacketStart_filter u _))
    case packetByte b =>
      exact next _ run (.other (.packetByte b) rfl rfl rfl (fun u => by constructor <;> simp) (fun u => by simp)
        (fun u => filterPacketByte_filter u b _ _))
    case packetEnd =>
      exact next _ run (.other .packetEnd rfl rfl rfl filterPacketEnd_output (fun u => by simp)
        (fun u => filterPacketEnd_filter u _))
    case idle =>
      exact next _ run (.other .idle rfl rfl rfl (fun u => by constructor <;> simp) (fun u => by simp)
        (fun u => filterIdle_filter u _ _))
    case forwardLinkDown =>
      refine next _ run ?_
      split
      · next receiving =>
        refine .linkDown _ rfl receiving (by constructor <;> simp) ?_ rfl
        exact (endOpenPacket_filter _).trans (by simp)
      · exact still _ (SameOutput.refl s) rfl rfl
    case forwardLinkUp =>
      refine next _ run ?_
      split
      · next up => exact .linkUp rfl (by simp_all) (by simp_all) rfl
      · exact still _ (SameOutput.refl s) rfl rfl
    case drainEnd =>
      refine next _ run ?_
      unfold endDrain
      split
      · exact still _ (SameOutput.refl s) rfl rfl
      · next n rest drains => exact .drained n rest rfl drains rfl
    case resetAssert =>
      refine next _ run ?_
      split
      · exact still _ (SameOutput.refl s) rfl rfl
      · next released => exact .asserted rfl (by simpa using released) rfl
    case resetRelease straps => exact next _ run (.release straps rfl rfl)
    case powerUp straps => exact next _ run (.power straps rfl rfl)
    case transmissionEnd =>
      refine next _ run (still _ ?_ (by simp) (by simp))
      refine ⟨by simp, by simp, by simp, by simp, by simp, by simp, by simp, ?_⟩
      unfold endTransmission
      split
      · split
        · exact List.prefix_rfl
        · exact List.prefix_append _ _
      · exact List.prefix_rfl
    case returnOutputLinkDown => refine next _ run ?_; split <;> exact still _ (.untouched rfl) rfl rfl
    case returnOutputLinkUp => refine next _ run ?_; split <;> exact still _ (.untouched rfl) rfl rfl
    case returnInputLinkDown => refine next _ run ?_; split <;> exact still _ (.untouched rfl) rfl rfl
    case returnInputLinkUp => refine next _ run ?_; split <;> exact still _ (.untouched rfl) rfl rfl
    all_goals exact next _ run (still _ (by constructor <;> simp) (by simp) (by simp))

end Sys2Proof.Machine
end

section
/-! The laws of the forward channel (R117 to R123, R128, R129, R132) behind each symbol with its slot, a link down or up, a drain's end and
RESET_N asserted. -/

set_option Elab.async false

namespace Sys2Proof.Machine

/-! ### The filter's laws, with a packet held and with none -/

section
variable {f g : Filter} {holds : Bool} {address : BitVec 4} {x : FwdSymbol}

/-- A filter that holds no packet and no symbol. -/
theorem filterLegal_of_none_held (none : g.reception ≠ .holding) (released : heldPart g.holdQueue = [])
    (length : g.holdQueue.length ≤ 258) (count : g.byteCount ≤ 257) (crc : g.crcTally ≤ 65535) (trunc : g.truncTally ≤ 65535) :
    g.Legal where
  order := by rw [released, releasedPart_of_heldPart released, List.append_nil]
  held reception := absurd reception none
  bytes reception := absurd reception none
  notHeld _ := released
  holdingCount reception := absurd reception none
  kind reception := absurd reception none
  countStop := count
  length := length
  crcStop := crc
  truncStop := trunc

/-- A filter that holds a packet behind released symbols. -/
theorem filterLegal_of_holding {released : List QueuedSymbol} {bytes : List Byte} (holding : g.reception = .holding)
    (queue : g.holdQueue = released ++ heldPacket bytes) (none : heldPart released = []) (count : g.byteCount = bytes.length)
    (room : g.byteCount ≤ 256) (kind : 0 < g.byteCount → g.kindKnown = .command ∧ bytes.head? = some kindCommand)
    (length : g.holdQueue.length ≤ 258) (crc : g.crcTally ≤ 65535) (trunc : g.truncTally ≤ 65535) : g.Legal where
  order := by rw [queue]; simp [none, releasedPart_of_heldPart none]
  held _ := by
    rw [queue]
    simp only [heldPart_append, none, heldPart_heldPacket, heldBytes_append, heldBytes_of_heldPart none, heldBytes_heldPacket]
    rfl
  bytes _ := by rw [queue, count]; simp [heldBytes_of_heldPart none]
  notHeld other := absurd holding other
  holdingCount _ := room
  kind _ := by rw [queue]; simpa [heldBytes_of_heldPart none] using kind
  countStop := by omega
  length := length
  crcStop := crc
  truncStop := trunc

/-- The queue while a packet is held. -/
theorem Filter.Legal.queue_holding (legal : f.Legal) (holding : f.reception = .holding) :
    f.holdQueue = releasedPart f.holdQueue ++ heldPacket (heldBytes f.holdQueue) := by
  conv_lhs => rw [legal.order, legal.held holding]
  rfl

theorem Filter.Legal.ordered (legal : f.Legal) : Ordered f.holdQueue := legal.order

theorem satSucc_le {bound n : Nat} (h : n ≤ bound) : satSucc bound n ≤ bound := by unfold satSucc; split <;> omega

theorem satSucc_eq_min {bound n : Nat} (h : n ≤ bound) : satSucc bound n = min bound (n + 1) := by
  unfold satSucc; split <;> omega

/-! ### The end of an open packet -/

theorem ended_reception (f : Filter) : f.ended.reception = .none := by
  unfold Filter.ended
  cases reception : f.reception with
  | none => exact reception
  | _ => rfl

theorem ended_holdQueue (legal : f.Legal) : f.ended.holdQueue = releaseHeld f.holdQueue := by
  have stands : f.reception ≠ .holding → f.holdQueue = releaseHeld f.holdQueue := fun none =>
    (releaseHeld_of_heldPart (legal.notHeld none)).symm
  unfold Filter.ended
  cases reception : f.reception with
  | holding => rfl
  | none => exact stands (by simp [reception])
  | overlong => exact stands (by simp [reception])
  | unexamined => exact stands (by simp [reception])

theorem ended_crcTally (f : Filter) : f.ended.crcTally = f.crcTally := by
  unfold Filter.ended
  cases f.reception <;> rfl

theorem ended_truncTally (legal : f.Legal) : f.ended.truncTally =
    if f.reception = .holding ∨ f.reception = .overlong then min 65535 (f.truncTally + 1) else f.truncTally := by
  have counted := satSucc_eq_min legal.truncStop
  unfold Filter.ended
  cases reception : f.reception <;> simp [Filter.opened, Filter.truncated, Filter.released, counted]

theorem ended_byteCount (f : Filter) : f.ended.byteCount = if f.reception = .none then f.byteCount else 0 := by
  unfold Filter.ended
  cases reception : f.reception <;> rfl

theorem ended_legal (legal : f.Legal) : f.ended.Legal := by
  refine filterLegal_of_none_held (by simp [ended_reception]) (by simp [ended_holdQueue legal]) ?_ ?_ ?_ ?_
  · rw [ended_holdQueue legal, length_releaseHeld]
    exact legal.length
  · have := legal.countStop
    rw [ended_byteCount]
    split <;> omega
  · rw [ended_crcTally]
    exact legal.crcStop
  · have := legal.truncStop
    rw [ended_truncTally legal]
    split <;> omega

/-! ### A symbol and its slot -/

/-- The filter behind the slot that goes with a symbol. -/
def Filter.slotted (f : Filter) : Filter := { f with holdQueue := afterSlot f.holdQueue }

/-- With nothing held the slot makes room for the symbol that has joined. -/
theorem slotted_legal_of_none_held (none : g.reception ≠ .holding) (released : heldPart g.holdQueue = [])
    (length : g.holdQueue.length ≤ 259) (count : g.byteCount ≤ 257) (crc : g.crcTally ≤ 65535) (trunc : g.truncTally ≤ 65535) :
    g.slotted.Legal := by
  refine filterLegal_of_none_held none (by simpa [Filter.slotted] using released) ?_ count crc trunc
  have slot : afterSlot g.holdQueue = g.holdQueue.tail := by
    have := afterSlot_append released (h := []) rfl
    simpa using this
  simp only [Filter.slotted, slot, List.length_tail]
  omega

theorem started_legal (legal : f.Legal) (holds : Bool) : (f.started holds).slotted.Legal := by
  have ended := ended_legal legal
  have released := ended.notHeld (by simp [ended_reception])
  have length := ended.length
  cases holds with
  | false =>
    refine slotted_legal_of_none_held nofun ?_ ?_ (Nat.zero_le _) ended.crcStop ended.truncStop
    · simp [Filter.started, Filter.joined, Filter.opened, released]
    · simp only [Filter.started, Filter.joined, Filter.opened, List.length_append, List.length_singleton]
      omega
  | true =>
    have queue : (f.started true).slotted.holdQueue = f.ended.holdQueue.tail ++ heldPacket [] :=
      afterSlot_append released (releasedPart_heldPacket [])
    refine filterLegal_of_holding rfl queue (heldPart_tail released) rfl (Nat.zero_le _) (fun some => by cases some) ?_
      ended.crcStop ended.truncStop
    rw [queue]
    simp only [List.length_append, List.length_tail, length_heldPacket, List.length_nil]
    omega

/-- A byte that joins the packet held. -/
theorem heldByte_joins_legal (legal : f.Legal) (holding : f.reception = .holding) {b : Byte} (room : f.byteCount < 256)
    (command : f.byteCount = 0 → b = kindCommand) :
    ({ f.joined (.packetByte b) true with byteCount := f.byteCount + 1, kindKnown := .command } : Filter).slotted.Legal := by
  have bytes := legal.bytes holding
  have total := congrArg List.length (legal.queue_holding holding)
  have length := legal.length
  have queue : afterSlot (f.holdQueue ++ [⟨.packetByte b, true⟩]) =
      (releasedPart f.holdQueue).tail ++ heldPacket (heldBytes f.holdQueue ++ [b]) := by
    conv_lhs => rw [legal.queue_holding holding, List.append_assoc, ← heldPacket_append]
    exact afterSlot_append heldPart_releasedPart (releasedPart_heldPacket _)
  have first : (heldBytes f.holdQueue ++ [b]).head? = some kindCommand := by
    by_cases none : f.byteCount = 0
    · rw [List.length_eq_zero_iff.mp (bytes.trans none), command none]
      rfl
    · obtain ⟨-, first⟩ := legal.kind holding (Nat.pos_of_ne_zero none)
      rw [List.head?_append, first]
      rfl
  refine filterLegal_of_holding holding queue (heldPart_tail heldPart_releasedPart) (by simp [bytes, Filter.slotted])
    (Nat.succ_le_of_lt room) (fun _ => ⟨rfl, first⟩) ?_ legal.crcStop legal.truncStop
  show (afterSlot _).length ≤ 258
  rw [show (Filter.joined _ _ _).holdQueue = f.holdQueue ++ [⟨.packetByte b, true⟩] from rfl, queue]
  simp only [List.length_append, List.length_tail, length_heldPacket, List.length_singleton] at total ⊢
  omega

theorem joined_passes_legal (legal : f.Legal) (none : f.reception ≠ .holding) (x : FwdSymbol) :
    (f.joined x false).slotted.Legal := by
  refine slotted_legal_of_none_held none ?_ ?_ legal.countStop legal.crcStop legal.truncStop
  · simp [Filter.joined, legal.notHeld none]
  · have := Nat.lt_add_one_of_le legal.length
    simpa [Filter.joined] using this

theorem heldByte_legal (legal : f.Legal) (holding : f.reception = .holding) (b : Byte) : (f.heldByte b).slotted.Legal := by
  have length := Nat.lt_add_one_of_le legal.length
  unfold Filter.heldByte
  split
  · refine slotted_legal_of_none_held nofun ?_ ?_ (Nat.le_refl _) legal.crcStop legal.truncStop
    · simp [Filter.joined, Filter.released]
    · simpa [Filter.joined, Filter.released] using length
  · next room =>
    split
    · next first =>
      split
      · next command =>
        have joins := heldByte_joins_legal legal holding (by omega) (fun _ => command)
        rw [first] at joins
        exact joins
      · refine slotted_legal_of_none_held nofun ?_ ?_ (Nat.zero_le _) legal.crcStop legal.truncStop
        · simp [Filter.joined, Filter.released]
        · simpa [Filter.joined, Filter.released] using length
    · next later =>
      obtain ⟨kind, -⟩ := legal.kind holding (Nat.pos_of_ne_zero later)
      have joins := heldByte_joins_legal (b := b) legal holding (by omega) (fun none => absurd none later)
      rw [← kind] at joins
      exact joins

theorem decided_legal (legal : f.Legal) (address : BitVec 4) : (f.decided address).slotted.Legal := by
  have length := Nat.lt_add_one_of_le legal.length
  have trunc := satSucc_le legal.truncStop
  have crc := satSucc_le legal.crcStop
  unfold Filter.decided
  dsimp only
  split
  · refine slotted_legal_of_none_held nofun (heldPart_releaseHeld _) ?_ (Nat.zero_le _) legal.crcStop trunc
    simpa [Filter.joined, Filter.released, Filter.opened, Filter.truncated] using length
  · refine slotted_legal_of_none_held nofun (heldPart_releaseHeld _) ?_ (Nat.zero_le _) crc legal.truncStop
    simpa [Filter.joined, Filter.released, Filter.opened] using length
  · split
    · refine slotted_legal_of_none_held nofun (heldPart_idleHeld _) ?_ (Nat.zero_le _) legal.crcStop legal.truncStop
      simpa [Filter.joined, Filter.released, Filter.opened] using length
    · refine slotted_legal_of_none_held nofun (heldPart_releaseHeld _) ?_ (Nat.zero_le _) legal.crcStop legal.truncStop
      simpa [Filter.joined, Filter.released, Filter.opened] using length

theorem packetEnded_legal (legal : f.Legal) (address : BitVec 4) : (f.packetEnded address).slotted.Legal := by
  have length := Nat.lt_add_one_of_le legal.length
  have released : f.reception ≠ .holding → heldPart (f.joined .packetEnd false).holdQueue = [] := fun none => by
    simp [Filter.joined, legal.notHeld none]
  have joined : (f.joined .packetEnd false).holdQueue.length ≤ 259 := by simpa [Filter.joined] using length
  unfold Filter.packetEnded
  cases reception : f.reception with
  | none => exact joined_passes_legal legal (by simp [reception]) _
  | holding => exact decided_legal legal address
  | overlong =>
    exact slotted_legal_of_none_held nofun (released (by simp [reception])) joined (Nat.zero_le _) legal.crcStop
      (satSucc_le legal.truncStop)
  | unexamined =>
    exact slotted_legal_of_none_held nofun (released (by simp [reception])) joined (Nat.zero_le _) legal.crcStop legal.truncStop

/-- A slot that takes no new symbol keeps the laws. -/
theorem slotted_legal (legal : f.Legal) : f.slotted.Legal where
  order := by
    show afterSlot f.holdQueue = releasedPart (afterSlot f.holdQueue) ++ heldPart (afterSlot f.holdQueue)
    rw [heldPart_afterSlot, legal.ordered.afterSlot_eq]
    simp [releasedPart_of_heldPart (heldPart_tail heldPart_releasedPart)]
  held := by simpa [Filter.slotted] using legal.held
  bytes := by simpa [Filter.slotted] using legal.bytes
  notHeld := by simpa [Filter.slotted] using legal.notHeld
  holdingCount := legal.holdingCount
  kind := by simpa [Filter.slotted] using legal.kind
  countStop := legal.countStop
  length := (length_afterSlot_le _).trans legal.length
  crcStop := legal.crcStop
  truncStop := legal.truncStop

/-- Every symbol with its slot keeps the filter's laws, the limit of 258 symbols among them (R129). -/
theorem after_slotted_legal (legal : f.Legal) (holds : Bool) (address : BitVec 4) (x : FwdSymbol) :
    (f.after holds address x).slotted.Legal := by
  have raster : (f.ended.joined x false).slotted.Legal :=
    joined_passes_legal (ended_legal legal) (by simp [ended_reception]) x
  cases x with
  | packetStart => exact started_legal legal holds
  | packetByte b =>
    show (f.byteTaken b).slotted.Legal
    unfold Filter.byteTaken
    split
    · next holding => exact heldByte_legal legal holding b
    · next none => exact joined_passes_legal legal none _
  | packetEnd => exact packetEnded_legal legal address
  | idle =>
    show (if f.holdQueue = [] then f.joined .idle false else f).slotted.Legal
    split
    · next empty =>
      refine joined_passes_legal legal (fun holding => ?_) _
      have held := legal.held holding
      rw [empty] at held
      cases held
    · exact slotted_legal legal
  | _ => exact raster

end

end Sys2Proof.Machine
end

section
/-! The link state that FWD_OUT presents and its drains (R117, R118, R132), behind each part of a command that touches them. -/

set_option Elab.async false

namespace Sys2Proof.Machine

/-! ### What a slot and a drain's end do -/

section
variable {s : State} {e : QueuedSymbol} {q : List QueuedSymbol} {n : Nat} {rest : List Nat}

/-- A drain that ends while symbols are taken, or with another behind it, presents UP again at once (R117). -/
theorem finishDrain_returns (up : rest ≠ [] ∨ s.receiving = true) : finishDrain rest s =
    { s with drains := rest, fwdOutUp := true, fwdSent := s.fwdSent ++ [.linkDown, .linkUp] } := by
  simp only [finishDrain, if_pos up, presentUp, presentDown, send, List.append_assoc, List.singleton_append]

/-- The last drain, that ends while no symbol is taken, leaves the output DOWN. -/
theorem finishDrain_last (deaf : s.receiving = false) : finishDrain [] s =
    { s with drains := [], fwdOutUp := false, fwdSent := s.fwdSent ++ [.linkDown] } := by
  simp [finishDrain, deaf, presentDown, send]

theorem finishDrain_drains (rest : List Nat) (s : State) : (finishDrain rest s).drains = rest := by
  unfold finishDrain
  dsimp only
  split <;> rfl

theorem countDrained_none (none : s.drains = []) : countDrained s = s := by simp only [countDrained, none]

theorem countDrained_more (drains : s.drains = n :: rest) (more : 1 < n) :
    countDrained s = { s with drains := (n - 1) :: rest } := by
  simp only [countDrained, drains, if_neg (Nat.not_le_of_lt more)]

theorem countDrained_last (drains : s.drains = n :: rest) (last : n ≤ 1) : countDrained s = finishDrain rest s := by
  simp only [countDrained, drains, if_pos last]

/-- The slot in which a released head leaves. -/
theorem outputSlot_leaves (waits : s.filter.holdQueue = e :: q) (released : e.held = false) : outputSlot s =
    countDrained { s with
      filter := { s.filter with holdQueue := q }
      fwdSent := s.fwdSent ++ [.symbol e.symbol] } := by
  simp [outputSlot, waits, released, send]

/-- A slot that nothing can leave in carries IDLE. -/
theorem outputSlot_idles (held : s.filter.holdQueue = [] ∨ ∃ e q, s.filter.holdQueue = e :: q ∧ e.held = true) :
    outputSlot s = send (.symbol .idle) s := by
  rcases held with empty | ⟨e, q, waits, held⟩
  · simp only [outputSlot, empty]
  · simp only [outputSlot, waits, held, if_true]

theorem slot_leaves_or_idles (s : State) : (∃ e q, s.filter.holdQueue = e :: q ∧ e.held = false) ∨
    (s.filter.holdQueue = [] ∨ ∃ e q, s.filter.holdQueue = e :: q ∧ e.held = true) := by
  cases waits : s.filter.holdQueue with
  | nil => exact .inr (.inl rfl)
  | cons e q =>
    cases held : e.held with
    | false => exact .inl ⟨e, q, rfl, held⟩
    | true => exact .inr (.inr ⟨e, q, rfl, held⟩)

end

/-! ### The laws of the output -/

section
variable {s t u : State}

/-- The laws look at RESET_N, the links, the drains and the hold queue. -/
theorem outputLegal_congr (h : s.OutputLegal) (same : SameOutput s t)
    (released : (releasedPart s.filter.holdQueue).length ≤ (releasedPart t.filter.holdQueue).length)
    (settled : s.receiving = true ∨ t.filter.holdQueue.length = s.filter.holdQueue.length) : t.OutputLegal where
  up := by rw [same.drains, same.fwdOutUp, same.receiving]; exact h.up
  draining := by rw [same.drains, same.fwdOutUp]; exact h.draining
  counts := by rw [same.drains]; exact h.counts.trans released
  settled := by
    rw [same.receiving, same.drains]
    intro deaf
    rcases settled with receiving | length
    · rw [receiving] at deaf
      cases deaf
    · rw [length]
      exact h.settled deaf
  positive := by rw [same.drains]; exact h.positive

theorem finishDrain_outputLegal {rest : List Nat} (counts : rest.sum ≤ (releasedPart s.filter.holdQueue).length)
    (settled : s.receiving = false → rest.sum = s.filter.holdQueue.length) (positive : ∀ n ∈ rest, 0 < n) :
    (finishDrain rest s).OutputLegal := by
  by_cases up : rest ≠ [] ∨ s.receiving = true
  · rw [finishDrain_returns up]
    exact {
      up := fun none => (up.resolve_left (not_not_intro none)).symm
      draining := fun _ => rfl
      counts := counts
      settled := settled
      positive := positive }
  · obtain ⟨none, deaf⟩ : rest = [] ∧ s.receiving = false := by simpa using up
    subst none
    rw [finishDrain_last deaf]
    exact {
      up := fun _ => deaf.symm
      draining := fun some => absurd rfl some
      counts := counts
      settled := settled
      positive := positive }

/-- A slot takes the head of the hold queue, and counts it off the drain under way (log entry 6). -/
theorem outputSlot_outputLegal (h : s.OutputLegal) (receiving : s.receiving = true) : (outputSlot s).OutputLegal := by
  rcases slot_leaves_or_idles s with ⟨e, q, waits, released⟩ | idles
  · have counts := h.counts
    have head : (releasedPart (e :: q)).length = (releasedPart q).length + 1 := by simp [releasedPart, released]
    rw [waits, head] at counts
    rw [outputSlot_leaves waits released]
    have deaf : ∀ {P : Prop}, s.receiving = false → P := fun deaf => by rw [receiving] at deaf; cases deaf
    obtain drains | ⟨n, rest, drains⟩ : s.drains = [] ∨ ∃ n rest, s.drains = n :: rest := by
      cases s.drains <;> simp
    · rw [countDrained_none (by exact drains)]
      exact {
        up := h.up
        draining := h.draining
        counts := by show s.drains.sum ≤ _; rw [drains]; exact Nat.zero_le _
        settled := deaf
        positive := h.positive }
    · have positive := h.positive
      rw [drains] at counts positive
      simp only [List.sum_cons, List.forall_mem_cons] at counts positive
      obtain ⟨first, later⟩ := positive
      by_cases last : n ≤ 1
      · rw [countDrained_last (n := n) (rest := rest) (by exact drains) last]
        exact finishDrain_outputLegal (by show rest.sum ≤ (releasedPart q).length; omega) deaf later
      · rw [countDrained_more (n := n) (rest := rest) (by exact drains) (by omega)]
        exact {
          up := nofun
          draining := fun _ => h.draining (by simp [drains])
          counts := by show ((n - 1) :: rest).sum ≤ (releasedPart q).length; rw [List.sum_cons]; omega
          settled := deaf
          positive := by
            show ∀ m ∈ (n - 1) :: rest, 0 < m
            exact List.forall_mem_cons.mpr ⟨by omega, later⟩ }
  · rw [outputSlot_idles idles]
    exact { up := h.up, draining := h.draining, counts := h.counts, settled := h.settled, positive := h.positive }

/-- The symbols that wait when symbols stop are all drained (R117, R118). -/
theorem beginDrain_outputLegal (deaf : s.receiving = false) (released : heldPart s.filter.holdQueue = [])
    (counts : s.drains.sum ≤ s.filter.holdQueue.length) (positive : ∀ n ∈ s.drains, 0 < n)
    (draining : s.drains ≠ [] → s.fwdOutUp = true) (up : s.drains.sum < s.filter.holdQueue.length → s.fwdOutUp = true) :
    (beginDrain s).OutputLegal := by
  unfold beginDrain
  dsimp only
  split
  · next waiting =>
    have total : (s.drains ++ [s.filter.holdQueue.length - s.drains.sum]).sum = s.filter.holdQueue.length := by
      rw [List.sum_append, List.sum_singleton]
      omega
    exact {
      up := fun none => by simp at none
      draining := fun _ => up (by omega)
      counts := by
        show List.sum _ ≤ (releasedPart s.filter.holdQueue).length
        rw [total, releasedPart_of_heldPart released]
      settled := fun _ => total
      positive := by
        intro m hm
        rcases List.mem_append.mp hm with old | new
        · exact positive m old
        · rw [List.mem_singleton.mp new]
          exact waiting }
  · next nothing =>
    have all : s.drains.sum = s.filter.holdQueue.length := by omega
    have within : s.drains.sum ≤ (releasedPart s.filter.holdQueue).length := by rw [releasedPart_of_heldPart released]; exact counts
    split
    · next idle =>
      exact {
        up := fun _ => deaf.symm
        draining := fun some => absurd idle.1 some
        counts := within
        settled := fun _ => all
        positive := positive }
    · next still =>
      exact {
        up := fun none => by
          rw [deaf]
          simpa [none] using still
        draining := draining
        counts := within
        settled := fun _ => all
        positive := positive }

end

end Sys2Proof.Machine
end

section
/-! The laws of the forward channel together, behind any command. -/

set_option Elab.async false

namespace Sys2Proof.Machine

section
variable {f : Filter} {holds : Bool} {address : BitVec 4} {x : FwdSymbol} {s t : State}

theorem releasedPart_length_le (q : List QueuedSymbol) : (releasedPart q).length ≤ q.length := List.length_filter_le _ q

/-- What the filter does to the hold queue it does by symbols that join at the tail, and by its held symbols released or replaced. -/
theorem after_holdQueue_induction {P : List QueuedSymbol → Prop} (joins : ∀ q e, P q → P (q ++ [e]))
    (release : ∀ q, P q → P (releaseHeld q)) (idle : ∀ q, P q → P (idleHeld q)) (f : Filter) (holds : Bool)
    (address : BitVec 4) (x : FwdSymbol) (before : P f.holdQueue) : P (f.after holds address x).holdQueue := by
  have joined : ∀ (g : Filter) (y : FwdSymbol) (held : Bool), P g.holdQueue → P (g.joined y held).holdQueue :=
    fun g y held h => joins g.holdQueue ⟨y, held⟩ h
  have ended : P f.ended.holdQueue := by
    unfold Filter.ended
    cases f.reception with
    | holding => exact release _ before
    | _ => exact before
  have raster := joined f.ended x false ended
  have decided : P (f.decided address).holdQueue := by
    have closed := joined f .packetEnd true before
    unfold Filter.decided
    dsimp only
    split
    · exact release _ closed
    · exact release _ closed
    · split
      · exact idle _ closed
      · exact release _ closed
  cases x with
  | packetStart => exact joined _ _ _ ended
  | packetByte b =>
    show P (f.byteTaken b).holdQueue
    unfold Filter.byteTaken Filter.heldByte
    split
    · split
      · exact joined _ _ _ (release _ before)
      · split
        · split
          · exact joined _ _ _ before
          · exact release _ (joined _ _ _ before)
        · exact joined _ _ _ before
    · exact joined _ _ _ before
  | packetEnd =>
    show P (f.packetEnded address).holdQueue
    unfold Filter.packetEnded
    cases f.reception with
    | holding => exact decided
    | none => exact joined _ _ _ before
    | overlong => exact joined _ _ _ before
    | unexamined => exact joined _ _ _ before
  | idle =>
    show P (if f.holdQueue = [] then f.joined .idle false else f).holdQueue
    split
    · exact joined _ _ _ before
    · exact before
  | _ => exact raster

/-- A symbol that joins, and a packet released, take nothing from the released symbols. -/
theorem after_releasedPart (f : Filter) (holds : Bool) (address : BitVec 4) (x : FwdSymbol) :
    (releasedPart f.holdQueue).length ≤ (releasedPart (f.after holds address x).holdQueue).length := by
  refine after_holdQueue_induction (P := fun q => (releasedPart f.holdQueue).length ≤ (releasedPart q).length) (fun q e h => ?_)
    (fun q h => ?_) (fun q h => ?_) f holds address x (Nat.le_refl _)
  · rw [releasedPart_append, List.length_append]
    omega
  · rw [releasedPart_releaseHeld, length_releaseHeld]
    exact h.trans (releasedPart_length_le q)
  · rw [releasedPart_of_heldPart (heldPart_idleHeld q), length_idleHeld]
    exact h.trans (releasedPart_length_le q)

/-- A released symbol at the head stays there until it leaves. -/
theorem after_head {e : QueuedSymbol} {q : List QueuedSymbol} (waits : f.holdQueue = e :: q) (released : e.held = false) :
    ∃ r, (f.after holds address x).holdQueue = e :: r := by
  refine after_holdQueue_induction (P := fun q => ∃ r, q = e :: r) ?_ ?_ ?_ f holds address x ⟨q, waits⟩
  · rintro _ y ⟨r, rfl⟩
    exact ⟨r ++ [y], rfl⟩
  · rintro _ ⟨r, rfl⟩
    refine ⟨releaseHeld r, congrArg (· :: releaseHeld r) ?_⟩
    rw [← released]
  · rintro _ ⟨r, rfl⟩
    exact ⟨idleHeld r, congrArg (· :: idleHeld r) (if_neg (by simp [released]))⟩

theorem decided_reception (f : Filter) (address : BitVec 4) : (f.decided address).reception = .none := by
  unfold Filter.decided
  dsimp only
  split
  · rfl
  · rfl
  · split <;> rfl

/-- A symbol that leaves a packet held has opened it, or found it held. -/
theorem after_holding (h : (f.after holds address x).reception = .holding) :
    x.isRaster = false ∧ (holds = true ∨ f.reception = .holding) := by
  have raster : (f.ended.joined x false).reception ≠ .holding := by
    show f.ended.reception ≠ .holding
    simp [ended_reception]
  cases x with
  | packetStart =>
    cases holds with
    | true => exact ⟨rfl, .inl rfl⟩
    | false => cases h
  | packetByte b =>
    refine ⟨rfl, .inr ?_⟩
    change (f.byteTaken b).reception = .holding at h
    by_contra none
    rw [Filter.byteTaken, if_neg none] at h
    exact none h
  | packetEnd =>
    change (f.packetEnded address).reception = .holding at h
    unfold Filter.packetEnded at h
    cases reception : f.reception with
    | holding => exact ⟨rfl, .inr rfl⟩
    | none => rw [reception] at h; simp [Filter.joined, reception] at h
    | overlong => rw [reception] at h; cases h
    | unexamined => rw [reception] at h; cases h
  | idle =>
    refine ⟨rfl, .inr ?_⟩
    change (if f.holdQueue = [] then f.joined .idle false else f).reception = .holding at h
    split at h <;> exact h
  | _ => exact absurd h raster

/-! ### Any command -/

/-- A symbol that is taken: what joins the filter, and the slot of FWD_OUT that goes with it. -/
theorem exec_takes {c : Instr} (brings : BringsSymbol c) (receiving : s.receiving = true) : ∃ x u,
    exec c s = .next (outputSlot u) ∧ x.rasterKind = rasterOf c ∧ (x.isRaster = false → symbolOf c = some x) ∧
      SameOutput s u ∧ u.filter = s.filter.after s.holdsPackets s.unitAddress x := by
  obtain ⟨t, run⟩ : ∃ t, exec c s = .next t := by cases c <;> exact ⟨_, rfl⟩
  cases exec_channel run with
  | still _ _ _ quiet => exact absurd brings (quiet receiving)
  | symbol x u _ kind other output filter _ eq => exact ⟨x, u, eq ▸ run, kind, other, output, filter⟩
  | linkDown _ row => simp [row, BringsSymbol, rasterOf] at brings
  | linkUp row => simp [row, BringsSymbol, rasterOf] at brings
  | drained _ _ row => simp [row, BringsSymbol, rasterOf] at brings
  | asserted row => simp [row, BringsSymbol, rasterOf] at brings
  | release _ row => simp [row, BringsSymbol, rasterOf] at brings
  | power _ row => simp [row, BringsSymbol, rasterOf] at brings

theorem hardReset_channelLegal (straps : BitVec 4) (s : State) : (hardReset straps s).ChannelLegal := by
  obtain ⟨filter, -, output⟩ := reset_channelLegal
  exact ⟨filter, nofun, output.up, output.draining, output.counts, output.settled, output.positive⟩

theorem outputSlot_reception (s : State) : (outputSlot s).filter.reception = s.filter.reception := by rw [outputSlot_filter]

/-- A symbol taken keeps the laws together. -/
theorem symbol_channelLegal {u : State} (h : s.ChannelLegal) (receiving : s.receiving = true) (output : SameOutput s u)
    (filter : u.filter = s.filter.after s.holdsPackets s.unitAddress x)
    (line : x.isRaster = false → u.tracker.inLine = s.tracker.inLine) : (outputSlot u).ChannelLegal := by
  obtain ⟨legal, holding, out⟩ := h
  refine ⟨?_, fun held => ?_, ?_⟩
  · rw [outputSlot_filter, filter]
    exact after_slotted_legal legal _ _ x
  · rw [outputSlot_reception, filter] at held
    obtain ⟨other, holds | before⟩ := after_holding held
    · simpa [State.addressed, output.unitAddress, line other, State.holdsPackets] using holds
    · simpa [State.addressed, output.unitAddress, line other] using holding before
  · refine outputSlot_outputLegal (outputLegal_congr out output ?_ (.inl receiving)) (output.receiving.trans receiving)
    rw [filter]
    exact after_releasedPart _ _ _ x

section
variable {q : List QueuedSymbol} {n : Nat}

/-- A drain's end takes released symbols only. -/
theorem Ordered.drop_eq (order : Ordered q) (within : n ≤ (releasedPart q).length) :
    q.drop n = (releasedPart q).drop n ++ heldPart q := by
  conv_lhs => rw [order]
  exact List.drop_append_of_le_length within

theorem heldPart_drop (released : heldPart q = []) : heldPart (q.drop n) = [] :=
  List.filter_eq_nil_iff.mpr fun e he => List.filter_eq_nil_iff.mp released e (List.mem_of_mem_drop he)

theorem releasedPart_drop (order : Ordered q) (within : n ≤ (releasedPart q).length) :
    releasedPart (q.drop n) = (releasedPart q).drop n := by
  rw [order.drop_eq within]
  simp [releasedPart_of_heldPart (heldPart_drop heldPart_releasedPart)]

theorem dropped_legal (legal : f.Legal) (within : n ≤ (releasedPart f.holdQueue).length) :
    ({ f with holdQueue := f.holdQueue.drop n } : Filter).Legal := by
  have queue := legal.ordered.drop_eq within
  have none : heldPart ((releasedPart f.holdQueue).drop n) = [] := heldPart_drop heldPart_releasedPart
  have length : (f.holdQueue.drop n).length ≤ 258 := by
    have := legal.length
    rw [List.length_drop]
    omega
  by_cases holding : f.reception = .holding
  · exact filterLegal_of_holding (bytes := heldBytes f.holdQueue) holding (by rw [queue, legal.held holding]; rfl) none
      (legal.bytes holding).symm (legal.holdingCount holding) (legal.kind holding) length legal.crcStop legal.truncStop
  · refine filterLegal_of_none_held holding ?_ length legal.countStop legal.crcStop legal.truncStop
    rw [queue, heldPart_append, none, legal.notHeld holding]
    rfl

end

theorem exec_channelLegal {c : Instr} (h : s.ChannelLegal) (run : exec c s = .next t) : t.ChannelLegal := by
  obtain ⟨legal, holding, out⟩ := id h
  have sum := out.counts.trans (releasedPart_length_le _)
  cases exec_channel run with
  | still output filter line =>
    refine ⟨filter ▸ legal, fun held => ?_, outputLegal_congr out output (by rw [filter]) (.inr (by rw [filter]))⟩
    rw [filter] at held
    simpa [State.addressed, output.unitAddress, line] using holding held
  | symbol x u receiving kind other output filter line eq =>
    subst eq
    exact symbol_channelLegal h receiving output filter line
  | linkDown u row receiving output filter eq =>
    subst eq
    have drains : u.drains = s.drains := output.drains
    have up : u.fwdOutUp = true := by
      refine output.fwdOutUp.trans ?_
      by_cases none : s.drains = []
      · exact (out.up none).trans receiving
      · exact out.draining none
    refine ⟨?_, fun held => ?_, beginDrain_outputLegal ?_ ?_ ?_ ?_ (fun _ => up) (fun _ => up)⟩
    · rw [beginDrain_filter, filter]
      exact ended_legal legal
    · rw [beginDrain_filter, filter, ended_reception] at held
      cases held
    · exact output.receiving.trans (by simp [State.receiving])
    · rw [filter, ended_holdQueue legal, heldPart_releaseHeld]
    · rw [filter, ended_holdQueue legal, length_releaseHeld, drains]
      exact sum
    · rw [drains]
      exact out.positive
  | linkUp row released down eq =>
    subst eq
    have taken : ({ s with fwdInUp := true } : State).receiving = true := by simp [State.receiving, released]
    unfold gainForwardLink
    dsimp only
    split
    · exact ⟨legal, holding, fun _ => taken.symm, fun some => by contradiction, out.counts,
        fun deaf => absurd (deaf.symm.trans taken) (by simp), out.positive⟩
    · next some =>
      exact ⟨legal, holding, fun none => absurd none some, out.draining, out.counts,
        fun deaf => absurd (deaf.symm.trans taken) (by simp), out.positive⟩
  | drained n rest row drains eq =>
    subst eq
    have counts := out.counts
    have positive := out.positive
    rw [drains] at counts positive
    rw [List.sum_cons] at counts
    refine ⟨?_, fun held => ?_, finishDrain_outputLegal ?_ ?_ (fun m hm => positive m (List.mem_cons_of_mem n hm))⟩
    · rw [finishDrain_filter]
      exact dropped_legal legal (by omega)
    · rw [finishDrain_filter] at held
      simpa [State.addressed] using holding held
    · show _ ≤ (releasedPart (s.filter.holdQueue.drop n)).length
      rw [releasedPart_drop legal.ordered (by omega), List.length_drop]
      omega
    · intro deaf
      have settled := out.settled deaf
      rw [drains, List.sum_cons] at settled
      show _ = (s.filter.holdQueue.drop n).length
      rw [List.length_drop]
      omega
  | asserted row released eq =>
    subst eq
    have up : s.drains.sum < s.filter.holdQueue.length ∨ s.drains ≠ [] → s.fwdOutUp = true := by
      intro some
      by_cases none : s.drains = []
      · rw [out.up none]
        by_contra deaf
        have settled := out.settled (by simpa using deaf)
        simp_all
      · exact out.draining none
    refine ⟨?_, fun held => ?_, beginDrain_outputLegal (by simp [State.receiving]) (heldPart_releaseHeld _) ?_ out.positive
      (fun some => up (.inr some)) (fun less => up (.inl ?_))⟩
    · rw [assertReset, beginDrain_filter]
      refine filterLegal_of_none_held nofun (heldPart_releaseHeld _) ?_ (Nat.zero_le _) legal.crcStop legal.truncStop
      exact (length_releaseHeld _).trans_le legal.length
    · rw [assertReset, beginDrain_filter] at held
      cases held
    · exact sum.trans (length_releaseHeld _).ge
    · exact less.trans_eq (length_releaseHeld _)
  | release straps row eq => exact eq ▸ hardReset_channelLegal straps _
  | power straps row eq => exact eq ▸ hardReset_channelLegal straps _

end

end Sys2Proof.Machine
end

section
/-! The stream of symbols that FWD_OUT has carried and that wait behind it (R121 to R130, R132): a symbol joins it at the end, and what
leaves the hold queue stays where it stands. -/

set_option Elab.async false

namespace Sys2Proof.Machine

/-! ### The symbols of the hold queue behind an arriving symbol -/

section
variable {f : Filter} {holds : Bool} {address : BitVec 4} {x : FwdSymbol}

/-- The symbols of the queue in their order, held or released. -/
def Filter.symbols (f : Filter) : List FwdSymbol := f.holdQueue.map QueuedSymbol.symbol

theorem ended_symbols (f : Filter) : f.ended.symbols = f.symbols := by
  unfold Filter.ended
  cases f.reception with
  | holding => exact symbols_releaseHeld f.holdQueue
  | _ => rfl

theorem joined_symbols (f : Filter) (held : Bool) : (f.joined x held).symbols = f.symbols ++ [x] := by
  simp [Filter.symbols, Filter.joined]

theorem released_symbols (f : Filter) : f.released.symbols = f.symbols := symbols_releaseHeld f.holdQueue

theorem byteTaken_symbols (f : Filter) (b : Byte) : (f.byteTaken b).symbols = f.symbols ++ [.packetByte b] := by
  unfold Filter.byteTaken Filter.heldByte
  split
  · split
    · exact (joined_symbols _ _).trans (congrArg (· ++ _) (released_symbols f))
    · split
      · split
        · exact joined_symbols f true
        · exact (released_symbols _).trans (joined_symbols f true)
      · exact joined_symbols f true
  · exact joined_symbols f false

/-- Held, released or passed, a symbol other than IDLE stands behind all that arrived before it; only a PACKET_END that decides a
held packet may move the packet's symbols (R126). -/
theorem after_symbols (symbol : x ≠ .idle) (undecided : x = .packetEnd → f.reception ≠ .holding) :
    (f.after holds address x).symbols = f.symbols ++ [x] := by
  have raster : (f.ended.joined x false).symbols = f.symbols ++ [x] := by rw [joined_symbols, ended_symbols]
  cases x with
  | packetStart => exact (joined_symbols _ _).trans (congrArg (· ++ _) (ended_symbols f))
  | packetByte b => exact byteTaken_symbols f b
  | packetEnd =>
    show (f.packetEnded address).symbols = _
    have passes := joined_symbols (x := .packetEnd) f false
    unfold Filter.packetEnded
    cases reception : f.reception with
    | holding => exact absurd reception (undecided rfl)
    | _ => exact passes
  | idle => exact absurd rfl symbol
  | _ => exact raster

/-- The packet that is not this unit's own passes as it stood (R124 to R126). -/
theorem decided_symbols (pass : ∀ seq code p, checkPacket (heldBytes f.holdQueue) = .good address seq code p → address = 15) :
    (f.decided address).symbols = f.symbols ++ [.packetEnd] := by
  have passes := (released_symbols (f.joined .packetEnd true)).trans (joined_symbols f true)
  unfold Filter.decided
  dsimp only
  split
  · exact passes
  · exact passes
  · next dest seq code p check =>
    split
    · next own =>
      obtain ⟨one, rfl⟩ := own
      exact absurd (pass seq code p check) one
    · exact passes

theorem decided_own_holdQueue {seq code : Byte} {p : List Byte} (one : address ≠ 15)
    (check : checkPacket (heldBytes f.holdQueue) = .good address seq code p) :
    (f.decided address).holdQueue = idleHeld (f.holdQueue ++ [⟨.packetEnd, true⟩]) := by
  simp only [Filter.decided, check, ne_eq, one, not_false_eq_true, and_self, if_true, Filter.joined, Filter.opened]

/-- This unit's own packet leaves as IDLEs: its PACKET_START, its bytes and its PACKET_END (R126). -/
theorem idleHeld_closed (legal : f.Legal) (holding : f.reception = .holding) :
    idleHeld (f.holdQueue ++ [⟨.packetEnd, true⟩]) =
      releasedPart f.holdQueue ++ List.replicate ((heldBytes f.holdQueue).length + 2) ⟨.idle, false⟩ := by
  have stands : idleHeld (releasedPart f.holdQueue) = releasedPart f.holdQueue := by
    refine (List.map_congr_left fun e he => ?_).trans (List.map_id _)
    rw [held_false_of_heldPart heldPart_releasedPart he]
    rfl
  have idles : idleHeld (heldPacket (heldBytes f.holdQueue) ++ [⟨.packetEnd, true⟩]) =
      List.replicate ((heldBytes f.holdQueue).length + 2) ⟨.idle, false⟩ := by
    simp only [idleHeld, heldPacket, List.map_append, List.map_cons, List.map_map, Function.comp_def, if_true,
      List.map_const', List.map_nil, List.cons_append]
    rw [List.replicate_succ, List.replicate_succ']
  conv_lhs => rw [legal.queue_holding holding, List.append_assoc]
  rw [idleHeld, List.map_append]
  exact congrArg₂ (· ++ ·) stands idles

end

/-! ### The stream behind a symbol -/

section
variable {s t u : State} {c : Instr} {x : FwdSymbol} {g : FwdOutput → Bool}

theorem forwardStream_eq (s : State) : s.forwardStream = s.fwdSent ++ s.filter.symbols.map .symbol := by
  simp [State.forwardStream, Filter.symbols]

theorem forwardStream_congr (sent : t.fwdSent = s.fwdSent) (symbols : t.filter.symbols = s.filter.symbols) :
    t.forwardStream = s.forwardStream := by rw [forwardStream_eq, forwardStream_eq, sent, symbols]

/-- A symbol that joins the queue's symbols joins the stream. -/
theorem forwardStream_joined (sent : u.fwdSent = s.fwdSent) (symbols : u.filter.symbols = s.filter.symbols ++ [x]) :
    u.forwardStream = s.forwardStream ++ [.symbol x] := by simp [forwardStream_eq, sent, symbols]

/-- A symbol taken stands in the stream behind all that arrived before it, and nothing else changes there: IDLE apart, and the
PACKET_END that decides a held packet. -/
theorem symbol_filter_forwardStream (output : SameOutput s u)
    (filter : u.filter = s.filter.after s.holdsPackets s.unitAddress x) (symbol : x ≠ .idle)
    (undecided : x = .packetEnd → s.filter.reception ≠ .holding) (idle : g (.symbol .idle) = false)
    (down : g .linkDown = false) (up : g .linkUp = false) (taken : g (.symbol x) = true) :
    (outputSlot u).forwardStream.filter g = s.forwardStream.filter g ++ [.symbol x] := by
  have symbols : u.filter.symbols = s.filter.symbols ++ [x] := by rw [filter, after_symbols symbol undecided]
  rw [filter_forwardStream_outputSlot idle down up, forwardStream_joined output.fwdSent symbols]
  simp [taken]

/-- An IDLE is absorbed, or passes: it leaves no trace among the other symbols (R130). -/
theorem idle_filter_forwardStream (output : SameOutput s u)
    (filter : u.filter = s.filter.after s.holdsPackets s.unitAddress .idle) (idle : g (.symbol .idle) = false)
    (down : g .linkDown = false) (up : g .linkUp = false) :
    (outputSlot u).forwardStream.filter g = s.forwardStream.filter g := by
  rw [filter_forwardStream_outputSlot idle down up]
  by_cases empty : s.filter.holdQueue = []
  · rw [Filter.after, if_pos empty] at filter
    rw [forwardStream_joined output.fwdSent ((congrArg Filter.symbols filter).trans (joined_symbols _ _))]
    simp [idle]
  · rw [Filter.after, if_neg empty] at filter
    rw [forwardStream_congr output.fwdSent (congrArg Filter.symbols filter)]

theorem filter_forwardStream_beginDrain (down : g .linkDown = false) (s : State) :
    (beginDrain s).forwardStream.filter g = s.forwardStream.filter g := by
  unfold beginDrain
  dsimp only
  split
  · rfl
  · split
    · exact filter_forwardStream_send down { s with fwdOutUp := false }
    · rfl

theorem sendFirst_forwardStream (n : Nat) (s : State) : (sendFirst n s).forwardStream = s.forwardStream := by
  simp only [State.forwardStream, sendFirst, List.append_assoc, ← List.map_append, List.take_append_drop]

theorem gainForwardLink_forwardStream (up : g .linkUp = false) (s : State) :
    (gainForwardLink s).forwardStream.filter g = s.forwardStream.filter g := by
  unfold gainForwardLink
  dsimp only
  split
  · exact filter_forwardStream_send up { s with fwdInUp := true, fwdOutUp := true }
  · rfl

/-- RESET_N asserted releases what was held and drains it: nothing is lost or moved (R118). -/
theorem assertReset_forwardStream (down : g .linkDown = false) (s : State) :
    (assertReset s).forwardStream.filter g = s.forwardStream.filter g := by
  rw [assertReset, filter_forwardStream_beginDrain down]
  exact congrArg _ (forwardStream_congr rfl (released_symbols s.filter))

/-- The release of RESET_N sends what still waits (log entry 8). -/
theorem release_forwardStream (down : g .linkDown = false) (straps : BitVec 4) (s : State) :
    (hardReset straps (ensureDown (sendFirst s.filter.holdQueue.length s))).forwardStream.filter g =
      s.forwardStream.filter g := by
  have sent : (sendFirst s.filter.holdQueue.length s).fwdSent = s.forwardStream := by simp [sendFirst, State.forwardStream]
  have reset : (hardReset straps (ensureDown (sendFirst s.filter.holdQueue.length s))).forwardStream =
      (ensureDown (sendFirst s.filter.holdQueue.length s)).fwdSent := List.append_nil _
  rw [reset, ← sent, ensureDown]
  split
  · simp [presentDown, send, down]
  · rfl

/-! ### Raster symbols (R129) -/

/-- The symbols of a decided packet are none of the raster, whether they pass or leave as IDLEs. -/
theorem decided_rasterStream (legal : s.filter.Legal) (holding : s.filter.reception = .holding) (sent : u.fwdSent = s.fwdSent)
    (filter : u.filter = s.filter.decided s.unitAddress) : u.rasterStream = s.rasterStream := by
  by_cases pass : ∀ seq code p,
      checkPacket (heldBytes s.filter.holdQueue) = .good s.unitAddress seq code p → s.unitAddress = 15
  · have joined : u.forwardStream = s.forwardStream ++ [.symbol .packetEnd] :=
      forwardStream_joined sent (by rw [filter, decided_symbols pass])
    simp [State.rasterStream, joined, FwdOutput.rasterKind, FwdSymbol.rasterKind]
  · push Not at pass
    obtain ⟨seq, code, p, check, one⟩ := pass
    rw [State.rasterStream, State.rasterStream, State.forwardStream, State.forwardStream, sent, filter,
      decided_own_holdQueue one check, idleHeld_closed legal holding]
    conv_rhs => rw [legal.queue_holding holding]
    simp [heldPacket, List.filter_map, Function.comp_def, FwdOutput.rasterKind, FwdSymbol.rasterKind]

/-- What a symbol taken adds to the raster symbols of the stream: itself, if it is one. -/
theorem symbol_rasterStream (legal : s.filter.Legal) (output : SameOutput s u)
    (filter : u.filter = s.filter.after s.holdsPackets s.unitAddress x) :
    (outputSlot u).rasterStream = s.rasterStream ++ [FwdOutput.symbol x].filter fun y => y.rasterKind.isSome := by
  by_cases idle : x = .idle
  · subst idle
    exact (idle_filter_forwardStream output filter rfl rfl rfl).trans (List.append_nil _).symm
  · by_cases decided : x = .packetEnd ∧ s.filter.reception = .holding
    · obtain ⟨rfl, holding⟩ := decided
      rw [Filter.after, Filter.packetEnded, holding] at filter
      rw [outputSlot_rasterStream, decided_rasterStream legal holding output.fwdSent filter]
      exact (List.append_nil _).symm
    · rw [outputSlot_rasterStream, State.rasterStream, State.rasterStream, ← List.filter_append]
      refine congrArg _ (forwardStream_joined output.fwdSent ?_)
      rw [filter, after_symbols idle fun last holding => decided ⟨last, holding⟩]

/-! ### What FWD_OUT has sent stays sent -/

@[simp] theorem gainForwardLink_pending (s : State) : (gainForwardLink s).pending = s.pending := by
  unfold gainForwardLink; dsimp only; split <;> rfl
@[simp] theorem gainForwardLink_retSent (s : State) : (gainForwardLink s).retSent = s.retSent := by
  unfold gainForwardLink; dsimp only; split <;> rfl
@[simp] theorem ensureDown_pending (s : State) : (ensureDown s).pending = s.pending := by unfold ensureDown; split <;> rfl
@[simp] theorem ensureDown_retSent (s : State) : (ensureDown s).retSent = s.retSent := by unfold ensureDown; split <;> rfl
@[simp] theorem hardReset_pending (straps : BitVec 4) (s : State) : (hardReset straps s).pending = s.pending := rfl
@[simp] theorem hardReset_retSent (straps : BitVec 4) (s : State) : (hardReset straps s).retSent = s.retSent := rfl
@[simp] theorem assertReset_pending (s : State) : (assertReset s).pending = s.pending := by
  rw [assertReset, beginDrain_pending]; rfl
@[simp] theorem assertReset_retSent (s : State) : (assertReset s).retSent = s.retSent := by
  rw [assertReset, beginDrain_retSent]; rfl

theorem send_sent (x : FwdOutput) (s : State) : s.fwdSent <+: (send x s).fwdSent := List.prefix_append _ _

theorem ensureDown_sent (s : State) : s.fwdSent <+: (ensureDown s).fwdSent := by
  unfold ensureDown
  split
  · exact send_sent .linkDown { s with fwdOutUp := false }
  · exact List.prefix_rfl

theorem finishDrain_sent (rest : List Nat) (s : State) : s.fwdSent <+: (finishDrain rest s).fwdSent := by
  have presented : s.fwdSent <+: (presentDown { s with drains := rest }).fwdSent := List.prefix_append _ _
  unfold finishDrain
  dsimp only
  split
  · exact presented.trans (List.prefix_append _ _)
  · exact presented

theorem countDrained_sent (s : State) : s.fwdSent <+: (countDrained s).fwdSent := by
  unfold countDrained
  split
  · exact List.prefix_rfl
  · split
    · exact finishDrain_sent _ s
    · exact List.prefix_rfl

theorem outputSlot_sent (s : State) : s.fwdSent <+: (outputSlot s).fwdSent := by
  rcases slot_leaves_or_idles s with ⟨e, q, waits, released⟩ | idles
  · rw [outputSlot_leaves waits released]
    refine List.IsPrefix.trans ?_ (countDrained_sent _)
    exact List.prefix_append _ _
  · rw [outputSlot_idles idles]
    exact send_sent _ s

theorem beginDrain_sent (s : State) : s.fwdSent <+: (beginDrain s).fwdSent := by
  unfold beginDrain
  dsimp only
  split
  · exact List.prefix_rfl
  · split
    · exact List.prefix_append _ _
    · exact List.prefix_rfl

theorem assertReset_sent (s : State) : s.fwdSent <+: (assertReset s).fwdSent :=
  beginDrain_sent { closePacket (releaseAll s) with resetAsserted := true }

theorem sendFirst_sent (n : Nat) (s : State) : s.fwdSent <+: (sendFirst n s).fwdSent := List.prefix_append _ _

theorem gainForwardLink_sent (s : State) : s.fwdSent <+: (gainForwardLink s).fwdSent := by
  unfold gainForwardLink
  dsimp only
  split
  · exact List.prefix_append _ _
  · exact List.prefix_rfl

end

end Sys2Proof.Machine
end

section
/-! What every command keeps of the forward channel: its laws, the raster symbols in their order, and what the outputs have sent (R116 to
R132). -/

set_option Elab.async false

namespace Sys2Proof.ForwardChannel

open Sys2Proof.Machine

/-- Settles O5: a step runs one command, whose effect on the forward channel is one of `ChannelEffect`. -/
theorem stepKeepsForwardChannelLegal : Obligations.StepKeepsForwardChannelLegal := by
  intro s t legal run
  unfold step at run
  split at run
  · rw [← Host.Outcome.next.inj run]
    exact legal
  · next c rest waits =>
    obtain ⟨filter, holding, output⟩ := legal
    have popped : ({ s with pending := rest } : State).ChannelLegal :=
      ⟨filter, holding, output.up, output.draining, output.counts, output.settled, output.positive⟩
    exact exec_channelLegal popped run

/-- Settles O18: a symbol taken joins the stream behind all that arrived before it, and every other command leaves the stream's raster
symbols where they stand. -/
theorem rasterSymbolsLeaveInArrivalOrder : Obligations.RasterSymbolsLeaveInArrivalOrder := by
  intro s t c legal powered run
  have stands : (s.receiving = true → ¬BringsSymbol c) → t.rasterStream = s.rasterStream →
      ∃ new, t.rasterStream = s.rasterStream ++ new ∧
        new.filterMap FwdOutput.rasterKind = if s.receiving = true then (rasterOf c).toList else [] := by
    intro quiet same
    refine ⟨[], by rw [same, List.append_nil], ?_⟩
    split
    · next receiving => rw [Option.not_isSome_iff_eq_none.mp fun raster => quiet receiving (.inl raster)]; rfl
    · rfl
  cases exec_channel run with
  | still output filter line quiet =>
    exact stands quiet (congrArg (List.filter _) (forwardStream_congr output.fwdSent (by rw [filter])))
  | symbol x u receiving kind other output filter line eq =>
    subst eq
    refine ⟨_, symbol_rasterStream legal output filter, ?_⟩
    rw [if_pos receiving, ← kind]
    cases symbol : x.rasterKind <;> simp [FwdOutput.rasterKind, symbol]
  | linkDown u row receiving output filter eq =>
    subst row eq
    refine stands (fun _ => by simp [BringsSymbol, rasterOf]) ((filter_forwardStream_beginDrain rfl u).trans (congrArg _ ?_))
    exact forwardStream_congr (s := s) output.fwdSent (by rw [filter, ended_symbols])
  | linkUp row released down eq =>
    exact stands (fun _ => by simp [row, BringsSymbol, rasterOf]) (eq ▸ gainForwardLink_forwardStream rfl s)
  | drained n rest row drains eq =>
    subst eq
    refine stands (fun _ => by simp [row, BringsSymbol, rasterOf]) ((filter_forwardStream_finishDrain rfl rfl rest _).trans ?_)
    exact congrArg _ (sendFirst_forwardStream n s)
  | asserted row released eq => exact stands (fun _ => by simp [row, BringsSymbol, rasterOf]) (eq ▸ assertReset_forwardStream rfl s)
  | release straps row eq => exact stands (fun _ => by simp [row, BringsSymbol, rasterOf]) (eq ▸ release_forwardStream rfl straps s)
  | power straps row eq => exact absurd row (powered straps)

/-- Settles O20: `exec` names a next state for every row, and what a command adds to an output joins what was sent. -/
theorem everyCommandAnswersANextState : Obligations.EveryCommandAnswersANextState := by
  intro s c
  obtain ⟨t, run⟩ : ∃ t, exec c s = .next t := by cases c <;> exact ⟨_, rfl⟩
  refine ⟨t, run, ?_⟩
  cases exec_channel run with
  | still output => exact ⟨output.pending, output.fwdSent ▸ List.prefix_rfl, output.returned⟩
  | symbol x u receiving kind other output filter line eq =>
    subst eq
    refine ⟨by simp [output.pending], ?_, by simpa using output.returned⟩
    exact output.fwdSent ▸ outputSlot_sent u
  | linkDown u row receiving output filter eq =>
    subst eq
    refine ⟨by simp [output.pending], ?_, by simpa using output.returned⟩
    have sent : u.fwdSent = s.fwdSent := output.fwdSent
    exact sent ▸ beginDrain_sent u
  | linkUp row released down eq => exact eq ▸ ⟨by simp, gainForwardLink_sent s, by simp⟩
  | drained n rest row drains eq =>
    exact eq ▸ ⟨by simp, (sendFirst_sent n s).trans (finishDrain_sent rest _), by simp⟩
  | asserted row released eq => exact eq ▸ ⟨by simp, assertReset_sent s, by simp⟩
  | release straps row eq =>
    exact eq ▸ ⟨by simp, (sendFirst_sent _ s).trans (ensureDown_sent _), by simp⟩
  | power straps row eq => exact eq ▸ ⟨by simp, ensureDown_sent s, by simp⟩

end Sys2Proof.ForwardChannel
end

section
/-! The LINK events among those a command raises: the tracker, the compositor and the apply raise none, and an open packet that ends
raises one where it is counted (R127, R131, R132). -/

set_option Elab.async false

namespace Sys2Proof.Machine

/-- The LINK events among these. -/
def linkEvents (l : List Event) : List Event := l.filter fun e => e.kind == .link

section
variable {s t : State} {c : Instr} {x : FwdSymbol}

@[simp] theorem linkEvents_append (l m : List Event) : linkEvents (l ++ m) = linkEvents l ++ linkEvents m :=
  List.filter_append l m

@[simp] theorem linkEvents_cutEvents (counter : Word16) : linkEvents (s.cutEvents counter) = s.cutEvents counter := by
  unfold State.cutEvents
  split <;> rfl

@[simp] theorem linkEvents_frameEvents (cutShort : Bool) : linkEvents (s.frameEvents cutShort) = [] := by
  unfold State.frameEvents
  split <;> rfl

@[simp] theorem linkEvents_commitEvents : linkEvents s.commitEvents = [] := by
  unfold State.commitEvents
  split <;> rfl

/-! ### Blocks -/

/-- The tracker's part of a symbol raises no LINK event (R113). -/
theorem trackSymbol_raises (x : FwdSymbol) (s : State) : ∃ l, s.Raises l (trackSymbol x s) ∧ linkEvents l = [] := by
  have quiet : ∀ r : Tracker, ∃ l, s.Raises l { s with tracker := r } ∧ linkEvents l = [] := fun r =>
    ⟨[], raises_nothing ⟨rfl, rfl, rfl, rfl⟩ rfl, rfl⟩
  unfold trackSymbol
  split
  · exact quiet _
  · exact quiet _
  · dsimp only
    split
    · split
      · exact ⟨_, raiseRaster_raises s _, rfl⟩
      · exact quiet _
    · exact quiet _
  · split
    · exact quiet _
    · next k fault =>
      refine ⟨_, (takeFault_raises k s).trans (raiseRaster_raises _ _), ?_⟩
      rw [linkEvents_append, linkEvents_frameEvents]
      rfl

theorem trackFrameStart_raises (s : State) : ∃ l, s.Raises l (trackFrameStart s) ∧ linkEvents l = [] := by
  cases state : s.tracker.rasterState with
  | noSignal => exact ⟨_, trackFrameStart_raises_acquiring (.inl state), rfl⟩
  | disrupted => exact ⟨_, trackFrameStart_raises_acquiring (.inr state), rfl⟩
  | acquiring => exact ⟨[], raises_nothing (alike_trackFrameStart s) (trackFrameStart_reports (.inl state)), rfl⟩
  | locked =>
    cases inside : s.tracker.inFrame with
    | false =>
      exact ⟨[], raises_nothing (alike_trackFrameStart s) (trackFrameStart_reports (.inr ⟨state, inside⟩)), rfl⟩
    | true =>
      refine ⟨_, trackFrameStart_raises_restart state inside, ?_⟩
      rw [linkEvents_append, linkEvents_frameEvents]
      rfl

@[simp] theorem trackLinkDown_tracker (s : State) : (trackLinkDown s).tracker = s.tracker.loseSignal := by
  unfold trackLinkDown
  dsimp only
  split
  · rfl
  · exact raiseRaster_tracker _

/-- Link down reports the raster state it leaves, where it changes (R112). -/
theorem trackLinkDown_raises (s : State) : s.Raises (if s.tracker.rasterState = .noSignal then [] else
    [.raster ⟨.noSignal, none, s.lastFault, s.tracker.frameCounter⟩]) (trackLinkDown s) := by
  unfold trackLinkDown
  split
  · exact raises_nothing ⟨rfl, rfl, rfl, rfl⟩ rfl
  · exact raiseRaster_raises s s.tracker.loseSignal

/-! ### Whole commands -/

/-- While symbols are not taken, one that arrives changes nothing. -/
theorem exec_deaf (symbol : BringsSymbol c) (deaf : s.receiving = false) : exec c s = .next s := by
  have still : ∀ f : State → State, (Host.Outcome.next (onSymbol f s) : Result) = .next s := fun f => by
    rw [onSymbol_deaf _ _ deaf]
  cases c <;> simp [BringsSymbol, rasterOf] at symbol <;> exact still _

/-- A symbol that ends the open packet raises its LINK event and no other, with the frame counter behind the symbol. A held packet
that a PACKET_END decides is not one that it ends unexamined. -/
theorem symbol_raises_cut (ends : (rasterOf c).isSome = true ∨ c = .packetStart ∨ c = .packetEnd) (receiving : s.receiving = true)
    (run : exec c s = .next t) (stops : s.filter.truncTally ≤ 65535)
    (undecided : c ≠ .packetEnd ∨ s.filter.reception ≠ .holding) :
    ∃ l, s.Raises l t ∧ linkEvents l = s.cutEvents t.tracker.frameCounter := by
  by_cases frame : c = .frameStart
  · subst frame
    obtain rfl := Host.Outcome.next.inj ((exec_frameStart receiving).symm.trans run)
    obtain ⟨l, tracked, none⟩ := trackFrameStart_raises s
    refine ⟨_, takeFrameStart_raises stops tracked, ?_⟩
    have counter : (outputSlot (takeFrameStart s)).tracker.frameCounter = s.tracker.frameCounter + 1 := by
      rw [outputSlot_tracker, takeFrameStart_tracker, ← trackFrameStart_tracker, trackFrameStart_counter]
    rw [linkEvents_append, linkEvents_append, none, linkEvents_commitEvents, linkEvents_cutEvents, counter]
    rfl
  · obtain ⟨x, symbol⟩ : ∃ x, symbolOf c = some x := by
      rcases ends with raster | rfl | rfl
      · cases c <;> simp [rasterOf, symbolOf] at raster frame ⊢
      · exact ⟨_, rfl⟩
      · exact ⟨_, rfl⟩
    have hx := symbolOf_ne_frameStart symbol
    obtain ⟨l, tracked, none⟩ := trackSymbol_raises x s
    have counter : t.tracker.frameCounter = s.tracker.frameCounter := by
      obtain ⟨u, ran, tracker⟩ := exec_symbol symbol receiving
      obtain rfl := Host.Outcome.next.inj (ran.symm.trans run)
      obtain ⟨-, -, -, -, counter⟩ := after_position s.tracker x hx
      rw [tracker, counter]
    by_cases last : c = .frameEnd
    · subst last
      obtain rfl := Option.some.inj symbol
      exact ⟨_, exec_frameEnd_raises receiving run stops tracked, by simp [none, counter]⟩
    · have cut : s.cutBy c = s.cutEvents s.tracker.frameCounter := by
        rcases ends with raster | rfl | rfl
        · cases c <;> simp [rasterOf, State.cutBy] at raster ⊢
        · rfl
        · rfl
      exact ⟨_, exec_symbol_raises symbol receiving run stops undecided (fun is => absurd is last) tracked,
        by simp [none, cut, counter]⟩

/-- A PACKET_BYTE and an IDLE raise what the tracker raises, and no LINK event. -/
theorem symbol_raises_passed (passes : (∃ b, c = .packetByte b) ∨ c = .idle) (receiving : s.receiving = true)
    (run : exec c s = .next t) (stops : s.filter.truncTally ≤ 65535) : ∃ l, s.Raises l t ∧ linkEvents l = [] := by
  rcases passes with ⟨b, rfl⟩ | rfl
  · obtain ⟨l, tracked, none⟩ := trackSymbol_raises (.packetByte b) s
    exact ⟨_, exec_symbol_raises rfl receiving run stops (.inl nofun) nofun tracked, by simp [none, State.cutBy]⟩
  · obtain ⟨l, tracked, none⟩ := trackSymbol_raises .idle s
    exact ⟨_, exec_symbol_raises rfl receiving run stops (.inl nofun) nofun tracked, by simp [none, State.cutBy]⟩

/-- A link down raises the RASTER, the TRUNCATION and the LINK event, in this order (log entry 13). -/
theorem loseForwardLink_raises (stops : s.filter.truncTally ≤ 65535) :
    s.Raises ((if s.tracker.rasterState = .noSignal then [] else
        [.raster ⟨.noSignal, none, s.lastFault, s.tracker.frameCounter⟩]) ++
      s.frameEvents true ++ s.cutEvents s.tracker.frameCounter) (loseForwardLink s) := by
  have stopped := stopCompositing_raises (trackLinkDown s)
  rw [frameEvents_congr (s := s) (by simp) (by rw [trackLinkDown_tracker]; rfl)] at stopped
  have cut := endOpenPacket_raises (s := stopCompositing (trackLinkDown s)) (by simpa using stops)
  have same : (stopCompositing (trackLinkDown s)).cutEvents (stopCompositing (trackLinkDown s)).tracker.frameCounter =
      s.cutEvents s.tracker.frameCounter := by
    simp [State.cutEvents, trackLinkDown_tracker, Tracker.loseSignal]
  rw [same] at cut
  refine (((trackLinkDown_raises s).trans stopped).trans cut).followed ?_ ?_
  · constructor <;> simp [loseForwardLink]
  · simp [loseForwardLink]

end

end Sys2Proof.Machine
end

section
/-! A unit strapped to 15, which no command reaches (R119). -/

set_option Elab.async false

namespace Sys2Proof.Machine

section
variable {s t : State} {c : Instr} {f : Filter} {address : BitVec 4} {x : FwdSymbol} {l : List Event}

/-- With every kind masked no event reaches the report unit (R152). -/
theorem raised_masked (mask : s.session.mask = EventMask.empty) (l : List Event) : s.raised l = s.reports := by
  have stands : ∀ e, raise e s = s := by
    intro e
    have masked : s.session.mask.has e.kind = false := by
      rw [mask]
      cases e.kind <;> rfl
    unfold raise reportFilled
    rw [raise_masked masked]
    cases s.reports.reportHead <;> rfl
  unfold State.raised
  induction l with
  | nil => rfl
  | cons e l ih => rw [List.foldl_cons, stands e, ih]

/-- A packet that is not held is neither decided nor counted, and none is held where packets are not. -/
theorem after_unaddressed (passing : f.reception = .none ∨ f.reception = .unexamined) :
    ((f.after false address x).reception = .none ∨ (f.after false address x).reception = .unexamined) ∧
      (f.after false address x).crcTally = f.crcTally ∧ (f.after false address x).truncTally = f.truncTally := by
  have ended : f.ended.crcTally = f.crcTally ∧ f.ended.truncTally = f.truncTally := by
    unfold Filter.ended
    rcases passing with none | unexamined <;> simp [*, Filter.opened]
  have raster : ((f.ended.joined x false).reception = .none ∨ (f.ended.joined x false).reception = .unexamined) ∧
      (f.ended.joined x false).crcTally = f.crcTally ∧ (f.ended.joined x false).truncTally = f.truncTally :=
    ⟨.inl (ended_reception f), ended⟩
  cases x with
  | packetStart => exact ⟨.inr rfl, ended⟩
  | packetByte b =>
    have other : f.reception ≠ .holding := by rcases passing with h | h <;> simp [h]
    simp only [Filter.after, Filter.byteTaken, if_neg other]
    exact ⟨passing, rfl, rfl⟩
  | packetEnd =>
    simp only [Filter.after, Filter.packetEnded]
    rcases passing with none | unexamined
    · simp only [none]
      exact ⟨.inl none, rfl, rfl⟩
    · simp only [unexamined]
      exact ⟨.inl rfl, rfl, rfl⟩
  | idle =>
    simp only [Filter.after]
    split
    · exact ⟨passing, rfl, rfl⟩
    · exact ⟨passing, rfl, rfl⟩
  | _ => exact raster

/-! ### The return lane with nothing to report -/

@[simp] theorem onRelay_queue (g : List RelayPlace → List RelayPlace) (s : State) :
    (onRelay g s).reports.queue = s.reports.queue := by
  unfold onRelay; split <;> rfl

@[simp] theorem onRelay_events (g : List RelayPlace → List RelayPlace) (s : State) :
    (onRelay g s).reports.events = s.reports.events := by
  unfold onRelay; split <;> rfl

theorem endRelayPacket_queue (s : State) : (endRelayPacket s).reports.queue = s.reports.queue := by
  unfold endRelayPacket; dsimp only; split <;> simp

theorem endRelayPacket_events (s : State) : (endRelayPacket s).reports.events = s.reports.events := by
  unfold endRelayPacket; dsimp only; split <;> simp

/-- With no report queued only a relay packet can end its transmission. -/
theorem endTransmission_unreported (none : s.reports.queue = []) :
    (endTransmission s).reports.queue = s.reports.queue ∧ (endTransmission s).reports.events = s.reports.events := by
  unfold endTransmission
  split
  · next q up sending =>
    cases q with
    | report => simp [ReportUnit.headOf, ReportUnit.reportHead, none]
    | relay => split <;> simp [ReportUnit.finish]
  · exact ⟨rfl, rfl⟩

/-! ### Any command -/

/-- The filter's part of R119. -/
theorem exec_dormant_filter (dormant : s.Dormant) (going : isHardReset c = false) (run : exec c s = .next t) :
    t.unitAddress = 15 ∧ (t.filter.reception = .none ∨ t.filter.reception = .unexamined) ∧
      t.filter.crcTally = 0 ∧ t.filter.truncTally = 0 := by
  obtain ⟨address, passing, ⟨crc, trunc⟩, -⟩ := dormant
  cases exec_channel run with
  | still output filter => exact ⟨output.unitAddress.trans address, by rw [filter]; exact ⟨passing, crc, trunc⟩⟩
  | symbol x u receiving kind other output filter line eq =>
    subst eq
    have holds : s.holdsPackets = false := by simp [State.holdsPackets, State.addressed, address]
    rw [holds] at filter
    obtain ⟨reception, crcStands, truncStands⟩ := after_unaddressed (address := s.unitAddress) (x := x) passing
    refine ⟨by simp [output.unitAddress, address], ?_⟩
    rw [outputSlot_filter, filter]
    exact ⟨reception, crcStands.trans crc, truncStands.trans trunc⟩
  | linkDown u row receiving output filter eq =>
    subst eq
    refine ⟨by simp [output.unitAddress, address], ?_⟩
    rw [beginDrain_filter, filter]
    refine ⟨.inl (ended_reception _), (ended_crcTally _).trans crc, ?_⟩
    unfold Filter.ended
    rcases passing with none | unexamined
    · simp only [none, trunc]
    · simp only [unexamined, Filter.opened, trunc]
  | linkUp row released down eq =>
    subst eq
    unfold gainForwardLink
    dsimp only
    split <;> exact ⟨address, passing, crc, trunc⟩
  | drained n rest row drains eq => exact eq ▸ ⟨by simp [address], by rw [finishDrain_filter]; exact ⟨passing, crc, trunc⟩⟩
  | asserted row released eq =>
    subst eq
    rw [assertReset, beginDrain_filter, beginDrain_unitAddress]
    exact ⟨address, .inl rfl, crc, trunc⟩
  | release straps row eq => subst row; cases going
  | power straps row eq => subst row; cases going

/-- No command reaches the session of a unit strapped to 15, and no apply is due there. -/
theorem exec_dormant_tables (dormant : s.Dormant) (going : isHardReset c = false) (run : exec c s = .next t) :
    t.session = s.session ∧ SameTables s t := by
  obtain ⟨address, passing, -, -, ⟨-, generations, -⟩, -⟩ := dormant
  cases exec_effect run with
  | quiet session tables => exact ⟨session, tables⟩
  | apply frame receiving due =>
    rw [generations] at due
    cases due
  | host how seq code p row reach eq => simp [State.takesCommands, State.addressed, address] at reach
  | packet how seq code p u row receiving holding => rcases passing with h | h <;> simp [h] at holding
  | reset straps row u eq => rcases row with rfl | rfl <;> cases going

/-- The report unit's part of R119: the lanes and the relay queue work, and nothing is reported. -/
theorem exec_dormant_reports (dormant : s.Dormant) (going : isHardReset c = false) (run : exec c s = .next t) :
    t.reports.queue = [] ∧ t.reports.events = PendingEvents.empty := by
  obtain ⟨address, passing, ⟨crc, trunc⟩, session, -, queue, events⟩ := dormant
  have stands : t.reports = s.reports → t.reports.queue = [] ∧ t.reports.events = PendingEvents.empty :=
    fun same => same ▸ ⟨queue, events⟩
  have silent : ∀ {l : List Event}, s.Raises l t → t.reports = s.reports := fun raises =>
    raises.reports.trans (raised_masked (by rw [session]; rfl) _)
  have stops : s.filter.truncTally ≤ 65535 := by omega
  have undecided : s.filter.reception ≠ .holding := by rcases passing with h | h <;> simp [h]
  have lane : ∀ u : State, exec c s = .next u → u.reports.queue = s.reports.queue → u.reports.events = s.reports.events →
      t.reports.queue = [] ∧ t.reports.events = PendingEvents.empty := fun u ran q e =>
    Host.Outcome.next.inj (run.symm.trans ran) ▸ ⟨q.trans queue, e.trans events⟩
  by_cases symbol : BringsSymbol c
  · cases receiving : s.receiving with
    | false =>
      obtain rfl := Host.Outcome.next.inj (run.symm.trans (exec_deaf symbol receiving))
      exact ⟨queue, events⟩
    | true =>
      rcases symbol with raster | rfl | passes | rfl | rfl
      · obtain ⟨l, raises, -⟩ := symbol_raises_cut (.inl raster) receiving run stops (.inr undecided)
        exact stands (silent raises)
      · obtain ⟨l, raises, -⟩ := symbol_raises_cut (.inr (.inl rfl)) receiving run stops (.inr undecided)
        exact stands (silent raises)
      · obtain ⟨l, raises, -⟩ := symbol_raises_passed (.inl passes) receiving run stops
        exact stands (silent raises)
      · obtain ⟨l, raises, -⟩ := symbol_raises_cut (.inr (.inr rfl)) receiving run stops (.inr undecided)
        exact stands (silent raises)
      · obtain ⟨l, raises, -⟩ := symbol_raises_passed (.inr rfl) receiving run stops
        exact stands (silent raises)
  · cases packet : carried c with
    | some taken =>
      obtain ⟨how, seq, code, p⟩ := taken
      rw [exec_host packet, takeCommand, if_neg (by simp [State.takesCommands, State.addressed, address])] at run
      exact stands (Host.Outcome.next.inj run ▸ rfl)
    | none =>
      cases c <;> simp only [carried, reduceCtorEq] at packet <;> simp [BringsSymbol, rasterOf] at symbol <;>
        simp only [isHardReset, reduceCtorEq] at going
      case forwardLinkDown =>
        refine stands ?_
        obtain rfl := Host.Outcome.next.inj run
        split
        · exact (loseForwardLink_raises stops).reports.trans (raised_masked (by rw [session]; rfl) _)
        · rfl
      case forwardLinkUp =>
        refine stands (Host.Outcome.next.inj run ▸ ?_)
        unfold gainForwardLink
        dsimp only
        split
        · split <;> rfl
        · rfl
      case drainEnd =>
        refine stands (Host.Outcome.next.inj run ▸ ?_)
        unfold endDrain
        split
        · rfl
        · simp
      case resetAssert =>
        refine stands (Host.Outcome.next.inj run ▸ ?_)
        split
        · rfl
        · rw [assertReset, beginDrain_reports]
          rfl
      case transmissionEnd => exact lane _ rfl (endTransmission_unreported queue).1 (endTransmission_unreported queue).2
      case relayPacketEnd => exact lane _ rfl (endRelayPacket_queue s) (endRelayPacket_events s)
      case returnOutputLinkDown => refine lane _ rfl ?_ ?_ <;> split <;> rfl
      case returnOutputLinkUp => refine lane _ rfl ?_ ?_ <;> split <;> simp
      case returnInputLinkDown => refine lane _ rfl ?_ ?_ <;> split <;> rfl
      case returnInputLinkUp => refine lane _ rfl ?_ ?_ <;> split <;> rfl
      case upstreamRoomWithdrawn => exact lane _ rfl rfl rfl
      case relayIdle => exact lane _ rfl rfl rfl
      all_goals exact lane _ rfl (by simp) (by simp)

end

end Sys2Proof.Machine

namespace Sys2Proof.ForwardChannel

open Sys2Proof.Machine

/-- Settles O14: with no packet held and no command taken neither the tables nor the session are reached, and with the mask of hard
reset no event is reported. -/
theorem unaddressedUnitStaysAtReset : Obligations.UnaddressedUnitStaysAtReset := by
  intro s t c dormant going run
  obtain ⟨address, reception, tallies⟩ := exec_dormant_filter dormant going run
  obtain ⟨session, tables⟩ := exec_dormant_tables dormant going run
  obtain ⟨objects, generations, images, palettes⟩ := dormant.tables
  exact {
    address, reception, tallies
    session := session.trans dormant.session
    tables := ⟨tables.objects.trans objects, tables.generations.trans generations, tables.images.trans images,
      tables.palettes.trans palettes⟩
    reports := exec_dormant_reports dormant going run }

end Sys2Proof.ForwardChannel
end

section
/-! The end of a hard reset: every block at its reset values (R2, R23, R45, R67, R68, R85, R87, R99, R118 to R120, R133, R149). -/

set_option Elab.async false

namespace Sys2Proof.Machine

theorem entryAt_reset (p i : Nat) : PaletteUnit.reset.entryAt p i = PaletteEntry.zero := by
  simp only [PaletteUnit.reset, PaletteUnit.entryAt, getD_replicate]

/-- R85: the free pages in ascending order. -/
theorem freePages_reset : ImageStore.reset.freePages.map Fin.val = List.range 2048 := by
  rw [ImageStore.reset, List.map_coe_finRange_eq_range, Config.pageCount]

theorem ensureDown_fwdSent (s : State) :
    (ensureDown s).fwdSent = s.fwdSent ++ if s.fwdOutUp = true then [.linkDown] else [] := by
  unfold ensureDown
  split
  · rfl
  · exact (List.append_nil _).symm

/-- What a hard reset leaves beside the reset values: the straps, the level of ROOM, and what the outputs had sent. -/
theorem hardReset_eq (straps : BitVec 4) {s u : State} (room : u.upstreamRoom = s.upstreamRoom) (returned : u.retSent = s.retSent)
    (pending : u.pending = s.pending) : hardReset straps u = { State.reset with
      unitAddress := straps
      upstreamRoom := s.upstreamRoom
      fwdSent := u.fwdSent
      retSent := s.retSent
      pending := s.pending } := by
  rw [hardReset, room, returned, pending]

theorem ensureDown_upstreamRoom (s : State) : (ensureDown s).upstreamRoom = s.upstreamRoom := by
  unfold ensureDown; split <;> rfl

end Sys2Proof.Machine

namespace Sys2Proof.ForwardChannel

open Sys2Proof.Machine

/-- Settles O57: both ends of a hard reset place the same reset values; the release of RESET_N sends first what still waits. -/
theorem hardResetRestoresEveryBlock : Obligations.HardResetRestoresEveryBlock := by
  intro s straps c row
  have tables : ∀ u : State,
      (∀ i, (hardReset straps u).objects.stagedAt i = none ∧ (hardReset straps u).objects.activeAt i = none) ∧
      (∀ h, (hardReset straps u).images.imageAt h = none ∧ ((hardReset straps u).images.entry h).stagedRefs = 0 ∧
        ((hardReset straps u).images.entry h).activeRefs = 0) ∧
      (hardReset straps u).images.freePages.map Fin.val = List.range 2048 ∧
      (∀ a, Memory.read (hardReset straps u).images.memory a = 0) ∧
      ∀ p i, (hardReset straps u).palettes.entryAt p i = ⟨⟨0, 0, 0⟩, 0⟩ := fun u =>
    ⟨fun i => ⟨stagedAt_reset i, activeAt_reset i⟩,
      fun h => by
        rw [ImageStore.imageAt, show (hardReset straps u).images.entry h = ImageEntry.free from entry_reset h]
        exact ⟨rfl, rfl, rfl⟩,
      freePages_reset, fun _ => rfl, entryAt_reset⟩
  rcases row with rfl | rfl
  · refine ⟨_, rfl, hardReset_eq straps ?_ (by simp) (by simp), ?_, tables _⟩
    · exact ensureDown_upstreamRoom _
    · show (ensureDown _).fwdSent = _
      simp [ensureDown_fwdSent, sendFirst]
  · refine ⟨_, rfl, hardReset_eq straps (ensureDown_upstreamRoom s) (by simp) (by simp), ?_, tables _⟩
    show (ensureDown s).fwdSent = _
    simp [ensureDown_fwdSent]

end Sys2Proof.ForwardChannel
end

section
/-! The forward link down and up, the drains of FWD_OUT, and RESET_N asserted (R112, R117, R118, R132). -/

set_option Elab.async false

namespace Sys2Proof.Machine

section
variable {s t u : State}

/-! ### The drain that begins when symbols stop -/

/-- The symbols that wait beyond the drains in line make a further one; with none and no drain FWD_OUT presents DOWN at once. -/
theorem beginDrain_drains (waiting : u.filter.symbols = s.filter.symbols) (drains : u.drains = s.drains)
    (sent : u.fwdSent = s.fwdSent) (up : u.fwdOutUp = s.fwdOutUp) :
    (0 < s.filter.holdQueue.length - s.drains.sum →
      (beginDrain u).drains = s.drains ++ [s.filter.holdQueue.length - s.drains.sum] ∧
        (beginDrain u).fwdSent = s.fwdSent ∧ (beginDrain u).fwdOutUp = s.fwdOutUp) ∧
    (s.filter.holdQueue.length - s.drains.sum = 0 → s.drains = [] → s.fwdOutUp = true →
      (beginDrain u).drains = [] ∧ (beginDrain u).fwdSent = s.fwdSent ++ [.linkDown] ∧ (beginDrain u).fwdOutUp = false) := by
  have length : u.filter.holdQueue.length = s.filter.holdQueue.length := by
    simpa [Filter.symbols] using congrArg List.length waiting
  rw [← length, ← drains, ← sent, ← up]
  unfold beginDrain
  refine ⟨fun some => ?_, fun none idle raised => ?_⟩
  · dsimp only
    rw [if_pos some]
    exact ⟨rfl, rfl, rfl⟩
  · dsimp only
    rw [none, if_neg (Nat.lt_irrefl 0), if_pos ⟨idle, raised⟩]
    exact ⟨idle, rfl, rfl⟩

/-! ### Link down and up -/

theorem stopCompositing_compositor (s : State) : (stopCompositing s).compositor =
    if s.compositor.compositing = true then ⟨false, [], WorkingSummary.zero, s.summary true⟩ else s.compositor := by
  unfold stopCompositing
  split
  · simp [latchSummary_compositor, State.summary]
  · rfl

theorem loseForwardLink_compositor (s : State) : (loseForwardLink s).compositor =
    if s.compositor.compositing = true then ⟨false, [], WorkingSummary.zero, s.summary true⟩ else s.compositor := by
  have same : (loseForwardLink s).compositor = (stopCompositing (trackLinkDown s)).compositor := by simp [loseForwardLink]
  rw [same, stopCompositing_compositor]
  simp [State.summary, Tracker.loseSignal]

theorem loseForwardLink_filter (s : State) : (loseForwardLink s).filter = s.filter.ended := by
  rw [loseForwardLink, beginDrain_filter]
  exact (endOpenPacket_filter _).trans (by simp)

theorem gainForwardLink_draining (some : s.drains ≠ []) : gainForwardLink s = { s with fwdInUp := true } := by
  simp only [gainForwardLink, if_neg some]

theorem gainForwardLink_idle (none : s.drains = []) :
    gainForwardLink s = { s with fwdInUp := true, fwdOutUp := true, fwdSent := s.fwdSent ++ [.linkUp] } := by
  simp only [gainForwardLink, if_pos none, presentUp, send]

/-! ### A symbol that arrives in a drain -/

/-- The slot of a symbol sends the drain's next one, and with its last one FWD_OUT presents DOWN and UP again (log entry 6). -/
theorem drain_slot {n : Nat} {rest : List Nat} {e : QueuedSymbol} {r : List QueuedSymbol} (receiving : s.receiving = true)
    (drains : s.drains = n :: rest) (released : e.held = false) (output : SameOutput s u) (waits : u.filter.holdQueue = e :: r) :
    (1 < n → (outputSlot u).drains = (n - 1) :: rest ∧ (outputSlot u).fwdOutUp = s.fwdOutUp ∧
      (outputSlot u).fwdSent = s.fwdSent ++ [.symbol e.symbol]) ∧
    (n ≤ 1 → (outputSlot u).drains = rest ∧ (outputSlot u).fwdOutUp = true ∧
      (outputSlot u).fwdSent = s.fwdSent ++ [.symbol e.symbol, .linkDown, .linkUp]) := by
  have draining : u.drains = n :: rest := output.drains.trans drains
  rw [outputSlot_leaves waits released]
  refine ⟨fun more => ?_, fun last => ?_⟩
  · rw [countDrained_more (by exact draining) more]
    exact ⟨rfl, output.fwdOutUp, by simp [output.fwdSent]⟩
  · rw [countDrained_last (by exact draining) last, finishDrain_returns (by exact .inr (output.receiving.trans receiving))]
    exact ⟨rfl, rfl, by simp [output.fwdSent]⟩

end

end Sys2Proof.Machine

namespace Sys2Proof.ForwardChannel

open Sys2Proof.Machine

/-- Settles O56, event by event: link down, link up, the end of a drain, a symbol that arrives in one, RESET_N asserted, and the events
that find nothing to do. -/
theorem forwardLinkDrainsAndReturns : Obligations.ForwardLinkDrainsAndReturns := by
  intro s
  refine ⟨fun receiving => ?_, fun released down => ?_, fun n rest drains => ?_,
    fun n rest e q c receiving drains waits released brings => ?_, fun released => ?_, fun asserted => ?_,
    fun deaf c brings => exec_deaf brings deaf⟩
  · refine ⟨loseForwardLink s, congrArg _ (if_pos receiving), by simp [loseForwardLink], by simp [loseForwardLink],
      by simp [loseForwardLink, Tracker.loseSignal], loseForwardLink_compositor s,
      fun legal => (loseForwardLink_raises legal.truncStop).reports, ?_⟩
    refine beginDrain_drains ?_ (by simp) (by simp) (by simp)
    have ended : (loseForwardLink s).filter.symbols = s.filter.symbols := by rw [loseForwardLink_filter, ended_symbols]
    rwa [loseForwardLink, beginDrain_filter] at ended
  · refine ⟨gainForwardLink s, congrArg _ (if_pos (by simp [released, down])), ?_⟩
    by_cases none : s.drains = []
    · rw [gainForwardLink_idle none]
      exact ⟨⟨rfl, rfl, rfl, rfl, rfl, rfl⟩, rfl, rfl, rfl, fun _ => ⟨rfl, rfl⟩, fun some => absurd none some⟩
    · rw [gainForwardLink_draining none]
      exact ⟨⟨rfl, rfl, rfl, rfl, rfl, rfl⟩, rfl, rfl, rfl, fun idle => absurd idle none, fun _ => ⟨rfl, rfl⟩⟩
  · have run : exec .drainEnd s = .next (finishDrain rest (sendFirst n s)) := by
      refine congrArg Host.Outcome.next ?_
      simp only [endDrain, drains]
    refine ⟨_, run, by simp, finishDrain_drains rest _, by rw [finishDrain_filter]; rfl, fun last deaf => ?_, fun up => ?_⟩
    · subst last
      rw [finishDrain_last (by exact deaf)]
      exact ⟨rfl, rfl⟩
    · rw [finishDrain_returns (by exact up)]
      exact ⟨rfl, by simp [sendFirst]⟩
  · obtain ⟨x, u, run, -, -, output, filter⟩ := exec_takes brings receiving
    obtain ⟨r, head⟩ := after_head (holds := s.holdsPackets) (address := s.unitAddress) (x := x) waits released
    exact ⟨_, run, drain_slot receiving drains released output (by rw [filter, head])⟩
  · refine ⟨assertReset s, congrArg _ (if_neg (by simp [released])), ?_, ?_, ?_, ?_, ?_, ?_, ?_, ?_⟩
    · simp [assertReset]
    · simp [assertReset]
    · simp [assertReset, State.retOutUp]
    · simp [assertReset, State.roomBelow]
    · rw [assertReset, beginDrain_filter]
      exact heldPart_releaseHeld _
    · rw [assertReset, beginDrain_filter]
      rfl
    · rw [assertReset, beginDrain_filter]
      exact released_symbols s.filter
    · exact beginDrain_drains (released_symbols s.filter) rfl rfl rfl
  · exact ⟨congrArg Host.Outcome.next (if_neg (by simp [State.receiving, asserted])),
      congrArg Host.Outcome.next (if_neg (by simp [asserted]))⟩

end Sys2Proof.ForwardChannel
end

section
/-! Packet symbols taken: where they stand in the stream, what they reach, and what they report (R107, R113, R121 to R131). -/

set_option Elab.async false

namespace Sys2Proof.Machine

section
variable {s t : State} {c : Instr} {x : FwdSymbol}

/-- A packet symbol or an IDLE that is no fault leaves the raster state (R107). -/
theorem after_rasterState_stands {r : Tracker} (other : x.isRaster = false)
    (good : r.faultAt x = none ∨ r.rasterState ≠ .locked) : (r.after x).rasterState = r.rasterState := by
  have frame : x ≠ .frameStart := by rintro rfl; cases other
  obtain ⟨moved, -⟩ := move_frame r x frame
  cases state : r.rasterState with
  | noSignal => rw [after_unjudged (.inl state), moved, state]
  | disrupted => rw [after_unjudged (.inr state), moved, state]
  | acquiring =>
    obtain ⟨acquiring, -⟩ := after_searching state frame (.inl (by rintro rfl; cases other))
    exact acquiring
  | locked => rw [after_good state (good.resolve_right (not_not_intro state)), moved, state]

theorem faultAt_outside {r : Tracker} (other : x.isRaster = false) (outside : r.inLine = false) : r.faultAt x = none := by
  cases x <;> simp [Tracker.faultAt, outside, FwdSymbol.isRaster] at other ⊢

/-- A symbol that is no fault leaves the compositor, in the tracker's part (R47). -/
theorem trackSymbol_compositor_good (good : s.tracker.faultAt x = none ∨ s.tracker.rasterState ≠ .locked) :
    (trackSymbol x s).compositor = s.compositor := by
  rw [trackSymbol_compositor, if_neg]
  rintro ⟨locked, fault, -⟩
  rw [good.resolve_right (not_not_intro locked)] at fault
  cases fault

/-- A command that is neither a host command nor a hard reset's end, and decides no held packet, leaves the session, and the tables
but for the apply of a FRAME_START. -/
theorem exec_uncommanded (run : exec c s = .next t) (event : carried c = none) (going : isHardReset c = false)
    (undecided : c ≠ .packetEnd ∨ s.filter.reception ≠ .holding) :
    t.session = s.session ∧ (c ≠ .frameStart ∨ ¬s.ApplyDue → SameTables s t) := by
  cases exec_effect run with
  | quiet session tables => exact ⟨session, fun _ => tables⟩
  | apply frame receiving due session tables =>
    refine ⟨session, fun other => ?_⟩
    rcases other with other | idle
    · exact absurd frame other
    · exact absurd ((dueAt_iff s).mp due) idle
  | host how seq code p row => rw [event] at row; cases row
  | packet how seq code p u row receiving holding => rcases undecided with h | h <;> contradiction
  | reset straps row => rcases row with rfl | rfl <;> cases going

/-- A packet symbol or an IDLE that is taken. -/
theorem exec_takes_packet (symbol : symbolOf c = some x) (other : x.isRaster = false) (receiving : s.receiving = true) :
    ∃ u, exec c s = .next (outputSlot u) ∧ SameOutput s u ∧ u.filter = s.filter.after s.holdsPackets s.unitAddress x := by
  have brings : BringsSymbol c ∧ rasterOf c = none := by
    cases c <;> simp [symbolOf, rasterOf, BringsSymbol] at symbol ⊢ <;> subst symbol <;> cases other
  obtain ⟨y, u, run, kind, row, output, filter⟩ := exec_takes brings.1 receiving
  have raster : y.isRaster = false := by
    rw [brings.2] at kind
    cases y <;> simp [FwdSymbol.rasterKind, FwdSymbol.isRaster] at kind ⊢
  obtain rfl := Option.some.inj ((row raster).symm.trans symbol)
  exact ⟨u, run, output, filter⟩

/-- Where the symbol of a packet is held, released or passed, it stands in the stream behind all that arrived before it. -/
theorem exec_packetSymbol (symbol : symbolOf c = some x) (other : x.isRaster = false) (receiving : s.receiving = true)
    (run : exec c s = .next t) : t.filter = (s.filter.after s.holdsPackets s.unitAddress x).slotted ∧
      (x ≠ .idle → (x = .packetEnd → s.filter.reception ≠ .holding) →
        t.contentStream = s.contentStream ++ [.symbol x]) ∧
      (x = .idle → t.contentStream = s.contentStream) := by
  obtain ⟨u, ran, output, filter⟩ := exec_takes_packet symbol other receiving
  obtain rfl := Host.Outcome.next.inj (ran.symm.trans run)
  refine ⟨by rw [outputSlot_filter, filter]; rfl, fun joins undecided => ?_, ?_⟩
  · refine symbol_filter_forwardStream output filter joins undecided rfl rfl rfl ?_
    cases x <;> simp [FwdOutput.isContent] at joins ⊢
  · rintro rfl
    exact idle_filter_forwardStream output filter rfl rfl rfl

/-- The filter's part of a packet symbol reaches neither the compositor nor RET_OUT, a packet's command apart. -/
theorem exec_packetSymbol_frame (symbol : symbolOf c = some x) (other : x.isRaster = false) (receiving : s.receiving = true)
    (run : exec c s = .next t) (undecided : c ≠ .packetEnd) :
    t.compositor = (trackSymbol x s).compositor ∧ t.retSent = s.retSent := by
  have slot : ∀ {f : State → State}, exec c s = .next (onSymbol f s) → t = outputSlot (f s) := by
    intro f ran
    rw [← onSymbol_receiving _ _ receiving]
    exact Host.Outcome.next.inj (run.symm.trans ran)
  cases c <;> simp only [symbolOf, reduceCtorEq, Option.some.injEq] at symbol <;> subst symbol <;>
    simp only [FwdSymbol.isRaster, reduceCtorEq] at other
  case packetStart => rw [slot (f := fun u => filterPacketStart (trackSymbol .packetStart u)) rfl]; simp
  case packetByte b => rw [slot (f := fun u => filterPacketByte b (trackSymbol (.packetByte b) u)) rfl]; simp
  case packetEnd => exact absurd rfl undecided
  case idle => rw [slot (f := fun u => filterIdle (trackSymbol .idle u)) rfl]; simp

/-- A packet symbol or an IDLE that is no fault reports no more than the packet it cuts, and leaves the compositor. -/
theorem exec_packetSymbol_good (symbol : symbolOf c = some x) (other : x.isRaster = false) (receiving : s.receiving = true)
    (run : exec c s = .next t) (undecided : c ≠ .packetEnd) (stops : s.filter.truncTally ≤ 65535)
    (good : s.tracker.faultAt x = none ∨ s.tracker.rasterState ≠ .locked) :
    t.compositor = s.compositor ∧ t.reports = s.raised (s.cutBy c) := by
  have quiet := trackSymbol_raises_nothing (s := s) (after_rasterState_stands other good) (by rintro rfl; cases other)
  have unended : c ≠ .frameEnd := by rintro rfl; obtain rfl := Option.some.inj symbol; cases other
  obtain ⟨compositor, -⟩ := exec_packetSymbol_frame symbol other receiving run undecided
  exact ⟨compositor.trans (trackSymbol_compositor_good good),
    (exec_symbol_raises symbol receiving run stops (.inl undecided) (fun is => absurd is unended) quiet).reports⟩

end

/-! ### The byte that arrives in a packet (R121 to R123) -/

section
variable {f : Filter} {b : Byte}

theorem byteTaken_crcTally (f : Filter) (b : Byte) : (f.byteTaken b).crcTally = f.crcTally := by
  unfold Filter.byteTaken Filter.heldByte
  repeat' split
  all_goals rfl

theorem byteTaken_truncTally (f : Filter) (b : Byte) : (f.byteTaken b).truncTally = f.truncTally := by
  unfold Filter.byteTaken Filter.heldByte
  repeat' split
  all_goals rfl

theorem byteTaken_passed (other : f.reception ≠ .holding) : f.byteTaken b = f.joined (.packetByte b) false := if_neg other

theorem byteTaken_held (holding : f.reception = .holding) : f.byteTaken b = f.heldByte b := if_pos holding

theorem heldByte_command (first : f.byteCount = 0) : f.heldByte kindCommand =
    { f.joined (.packetByte kindCommand) true with byteCount := 1, kindKnown := .command } := by
  simp [Filter.heldByte, first]

theorem heldByte_other (first : f.byteCount = 0) (kind : b ≠ kindCommand) : f.heldByte b =
    { (f.joined (.packetByte b) true).released with reception := .unexamined, byteCount := 0, kindKnown := .other } := by
  simp [Filter.heldByte, first, kind]

theorem heldByte_next (later : 0 < f.byteCount) (room : f.byteCount < 256) : f.heldByte b =
    { f.joined (.packetByte b) true with byteCount := f.byteCount + 1 } := by
  rw [Filter.heldByte, if_neg (by omega), if_neg (by omega)]

theorem heldByte_overlong (full : f.byteCount = 256) : f.heldByte b =
    { f.released with reception := .overlong, byteCount := 257, kindKnown := .no }.joined (.packetByte b) false := by
  rw [Filter.heldByte, if_pos (by omega)]

/-- An IDLE is absorbed behind a waiting symbol, and leaves in its own slot otherwise: the filter is as with its slot alone (R130). -/
theorem idle_slotted (holds : Bool) (address : BitVec 4) : (f.after holds address .idle).slotted = f.slotted := by
  by_cases empty : f.holdQueue = []
  · rw [Filter.after, if_pos empty, Filter.slotted, Filter.slotted, Filter.joined, empty]
    rfl
  · rw [Filter.after, if_neg empty]

theorem slotted_empty (empty : f.holdQueue = []) : f.slotted = f := by
  obtain ⟨_, _, _, queue, _, _⟩ := f
  obtain rfl : queue = [] := empty
  rfl

theorem slotted_leaves {e : QueuedSymbol} {q : List QueuedSymbol} (waits : f.holdQueue = e :: q) (released : e.held = false) :
    f.slotted = { f with holdQueue := q } := by
  simp [Filter.slotted, waits, afterSlot, released]

theorem slotted_stays {e : QueuedSymbol} {q : List QueuedSymbol} (waits : f.holdQueue = e :: q) (held : e.held = true) :
    f.slotted = f := by
  rw [Filter.slotted, waits, afterSlot, if_pos held, ← waits]

theorem joined_heldBytes (f : Filter) : heldBytes (f.joined (.packetByte b) true).holdQueue = heldBytes f.holdQueue ++ [b] := by
  simp [Filter.joined]

end

end Sys2Proof.Machine
end

section
/-! The symbols of packets as they arrive, held or passed (R119, R121 to R123, R127 to R130). -/

set_option Elab.async false

namespace Sys2Proof.Machine

/-- The hold queue never grows past 258 symbols (R129). -/
theorem exec_holdQueue_length {s t : State} {c : Instr} (legal : s.filter.Legal) (run : exec c s = .next t) :
    t.filter.holdQueue.length ≤ 258 := by
  have length := legal.length
  cases exec_channel run with
  | still output filter => rwa [filter]
  | symbol x u receiving kind other output filter line eq =>
    rw [eq, outputSlot_filter, filter]
    exact (after_slotted_legal legal _ _ x).length
  | linkDown u row receiving output filter eq =>
    rw [eq, beginDrain_filter, filter]
    exact (ended_legal legal).length
  | linkUp row released down eq =>
    subst eq
    unfold gainForwardLink
    dsimp only
    split <;> exact length
  | drained n rest row drains eq =>
    rw [eq, finishDrain_filter]
    exact (List.length_drop.trans_le (Nat.sub_le _ _)).trans length
  | asserted row released eq =>
    rw [eq, assertReset, beginDrain_filter]
    exact (length_releaseHeld _).trans_le length
  | release straps row eq => exact eq ▸ Nat.zero_le _
  | power straps row eq => exact eq ▸ Nat.zero_le _

end Sys2Proof.Machine

namespace Sys2Proof.ForwardChannel

open Sys2Proof.Machine

/-- Settles O53, symbol by symbol: the stream and the filter behind it, and what it reaches beside them. -/
theorem packetSymbolsAreHeldOrPassed : Obligations.PacketSymbolsAreHeldOrPassed := by
  intro s receiving legal f passes noFault opens takes
  have reaches : ∀ {c x t l}, symbolOf c = some x → x.isRaster = false → c ≠ .packetEnd → exec c s = .next t →
      t.contentStream = s.contentStream ++ l → passes t l := by
    intro c x t l symbol other undecided run stream
    have event : carried c = none ∧ isHardReset c = false ∧ c ≠ .frameStart := by
      cases c <;> simp [symbolOf, carried, isHardReset] at symbol ⊢
    obtain ⟨event, going, frame⟩ := event
    obtain ⟨session, tables⟩ := exec_uncommanded run event going (.inl undecided)
    have tables := tables (.inl frame)
    obtain ⟨-, returned⟩ := exec_packetSymbol_frame symbol other receiving run undecided
    exact ⟨stream, session, tables.objects, tables.generations, tables.palettes, tables.images, returned⟩
  have start : ∀ {r held}, ((s.filter.started s.holdsPackets).slotted.reception = r) →
      heldPart (s.filter.started s.holdsPackets).slotted.holdQueue = held → opens r held := by
    intro r held reception queue
    obtain ⟨t, run, -⟩ := exec_symbol (c := .packetStart) rfl receiving
    obtain ⟨filter, stream, -⟩ := exec_packetSymbol rfl rfl receiving run
    refine ⟨t, run, reaches (c := .packetStart) rfl rfl nofun run (stream nofun nofun), fun good => ?_, ?_⟩
    · exact exec_packetSymbol_good rfl rfl receiving run nofun legal.truncStop (good.imp_left (faultAt_outside rfl))
    · rw [filter]
      exact ⟨reception, rfl, rfl, queue⟩
  have byte : ∀ {b r count bytes}, (f.byteTaken b).reception = r → (r ≠ .unexamined → (f.byteTaken b).byteCount = count) →
      heldBytes (f.byteTaken b).holdQueue = bytes → (r ≠ .holding → heldPart (f.byteTaken b).holdQueue = []) →
      takes b r count bytes := by
    intro b r count bytes reception counted queue released
    obtain ⟨t, run, -⟩ := exec_symbol (c := .packetByte b) rfl receiving
    obtain ⟨filter, stream, -⟩ := exec_packetSymbol rfl rfl receiving run
    refine ⟨t, run, reaches (c := .packetByte b) rfl rfl nofun run (stream nofun nofun), fun good => ?_, ?_⟩
    · exact exec_packetSymbol_good rfl rfl receiving run nofun legal.truncStop (good.imp_left (faultAt_outside rfl))
    · rw [filter]
      refine ⟨reception, counted, (heldBytes_afterSlot _).trans queue, fun other => ?_, byteTaken_crcTally f b,
        byteTaken_truncTally f b⟩
      exact (heldPart_afterSlot _).trans (released other)
  have ended := (ended_legal legal).notHeld (by simp [ended_reception])
  have holds : s.addressed = true → s.tracker.inLine = false → s.holdsPackets = true := fun addressed outside => by
    simp [State.holdsPackets, addressed, outside]
  have passesOn : s.addressed = false ∨ s.tracker.inLine = true → s.holdsPackets = false := fun other => by
    rcases other with other | other <;> simp [State.holdsPackets, other]
  obtain ⟨u, idle, output, filter⟩ := exec_takes_packet (c := .idle) rfl rfl receiving
  have slot : (outputSlot u).filter = f.slotted := by
    rw [outputSlot_filter, filter]
    exact idle_slotted _ _
  refine ⟨fun addressed outside => start ?_ ?_, fun other => start ?_ ?_, fun holding first => ?_,
    fun b holding first kind => ?_, fun b holding later room => ?_, fun b holding full => ?_, fun b other => ?_, ?_, ?_, ?_,
    fun c t run => exec_holdQueue_length legal run⟩
  · rw [holds addressed outside]
    rfl
  · rw [holds addressed outside]
    exact (heldPart_afterSlot _).trans (by simp [Filter.started, Filter.joined, Filter.opened, ended])
  · rw [passesOn other]
    rfl
  · rw [passesOn other]
    exact (heldPart_afterSlot _).trans (by simp [Filter.started, Filter.joined, Filter.opened, ended])
  · have bytes := List.length_eq_zero_iff.mp ((legal.bytes holding).trans first)
    have command : f.heldByte 0x43 =
        { f.joined (.packetByte 0x43) true with byteCount := 1, kindKnown := .command } := heldByte_command first
    refine byte ?_ (fun _ => ?_) ?_ (fun none => absurd rfl none)
    · rw [byteTaken_held holding, command]; exact holding
    · rw [byteTaken_held holding, command]
    · rw [byteTaken_held holding, command]
      exact (joined_heldBytes f).trans (by rw [bytes]; rfl)
  · have other := heldByte_other first kind
    refine byte ?_ (fun none => absurd rfl none) ?_ (fun _ => ?_)
    · rw [byteTaken_held holding, other]
    · rw [byteTaken_held holding, other]
      exact heldBytes_of_heldPart (heldPart_releaseHeld _)
    · rw [byteTaken_held holding, other]
      exact heldPart_releaseHeld _
  · have next := heldByte_next (b := b) later room
    refine byte ?_ (fun _ => ?_) ?_ (fun none => absurd rfl none)
    · rw [byteTaken_held holding, next]; exact holding
    · rw [byteTaken_held holding, next]
    · rw [byteTaken_held holding, next]
      exact joined_heldBytes f
  · have overlong := heldByte_overlong (b := b) full
    have released : heldPart (f.heldByte b).holdQueue = [] := by
      rw [overlong]
      simp [Filter.joined, Filter.released]
    refine byte ?_ (fun _ => ?_) ?_ (fun _ => ?_)
    · rw [byteTaken_held holding, overlong]; rfl
    · rw [byteTaken_held holding, overlong]; rfl
    · rw [byteTaken_held holding]
      exact heldBytes_of_heldPart released
    · rw [byteTaken_held holding]
      exact released
  · have passed := byteTaken_passed (b := b) other
    have released : heldPart (f.byteTaken b).holdQueue = [] := by
      rw [passed]
      simp [Filter.joined, legal.notHeld other, f]
    refine byte ?_ (fun _ => ?_) (heldBytes_of_heldPart released) (fun _ => released)
    · rw [passed]; rfl
    · rw [passed]; rfl
  · obtain ⟨-, -, stream⟩ := exec_packetSymbol rfl rfl receiving idle
    have good := exec_packetSymbol_good rfl rfl receiving idle nofun legal.truncStop (.inl rfl)
    refine ⟨_, idle, reaches (c := .idle) rfl rfl nofun idle ((stream rfl).trans (List.append_nil _).symm), good.1, good.2, ?_, ?_⟩
    · rw [slot]; rfl
    · rw [slot]
      exact heldPart_afterSlot _
  · refine fun empty none => ⟨_, idle, ?_, slot.trans (slotted_empty empty)⟩
    have waits : u.filter.holdQueue = [⟨.idle, false⟩] := by
      rw [filter, Filter.after, if_pos empty, Filter.joined, empty]
      rfl
    rw [outputSlot_leaves waits rfl, countDrained_none (by exact output.drains.trans none)]
    exact congrArg (· ++ _) output.fwdSent
  · intro e q waits
    have waiting : s.filter.holdQueue ≠ [] := fun none => by cases none.symm.trans waits
    have head : u.filter.holdQueue = e :: q := by rw [filter, Filter.after, if_neg waiting, waits]
    refine ⟨_, idle, fun released => ⟨slot.trans (slotted_leaves waits released), fun none => ?_⟩,
      fun held => ⟨?_, slot.trans (slotted_stays waits held)⟩⟩
    · rw [outputSlot_leaves head released, countDrained_none (by exact output.drains.trans none)]
      exact congrArg (· ++ _) output.fwdSent
    · rw [outputSlot_idles (.inr ⟨e, q, head, held⟩)]
      exact congrArg (· ++ _) output.fwdSent

end Sys2Proof.ForwardChannel
end

section
/-! The end of an open packet that is not decided: at a raster symbol, a PACKET_START, a link down, or a PACKET_END that finds it not
held (R121 to R123, R127 to R129, R131, R132). -/

set_option Elab.async false

namespace Sys2Proof.Machine

section
variable {s t : State} {c : Instr} {f : Filter} {holds : Bool} {address : BitVec 4} {x : FwdSymbol}

theorem after_raster (raster : x.isRaster = true) : f.after holds address x = f.ended.joined x false := by
  cases x <;> simp only [FwdSymbol.isRaster, Bool.false_eq_true] at raster <;> rfl

/-- The filter behind a PACKET_END that decides no packet: one in OVERLONG is counted. -/
theorem packetEnded_undecided (legal : f.Legal) (undecided : f.reception ≠ .holding) :
    (f.packetEnded address).truncTally =
        (if f.reception = .overlong then min 65535 (f.truncTally + 1) else f.truncTally) ∧
      (f.packetEnded address).crcTally = f.crcTally ∧ (f.packetEnded address).reception = .none ∧
      heldPart (f.packetEnded address).holdQueue = [] ∧ (f.reception ≠ .none → (f.packetEnded address).byteCount = 0) := by
  have counted := satSucc_eq_min legal.truncStop
  have released : heldPart (f.joined .packetEnd false).holdQueue = [] := by
    simp [Filter.joined, legal.notHeld undecided]
  unfold Filter.packetEnded
  cases reception : f.reception with
  | holding => exact absurd reception undecided
  | none => exact ⟨rfl, rfl, reception, released, fun some => absurd rfl some⟩
  | overlong => exact ⟨counted, rfl, rfl, released, fun _ => rfl⟩
  | unexamined => exact ⟨rfl, rfl, rfl, released, fun _ => rfl⟩

theorem loseForwardLink_forwardStream {g : FwdOutput → Bool} (down : g .linkDown = false) (s : State) :
    (loseForwardLink s).forwardStream.filter g = s.forwardStream.filter g := by
  have symbols : (endOpenPacket (stopCompositing (trackLinkDown s))).filter.symbols = s.filter.symbols := by
    rw [endOpenPacket_filter, ended_symbols]
    simp
  rw [loseForwardLink, filter_forwardStream_beginDrain down]
  exact congrArg _ (forwardStream_congr (by simp) symbols)

/-- A raster symbol behind the packet it ends. -/
theorem exec_takes_raster (raster : (rasterOf c).isSome = true) (receiving : s.receiving = true) (run : exec c s = .next t) :
    ∃ x : FwdSymbol, x.rasterKind = rasterOf c ∧ t.contentStream = s.contentStream ++ [.symbol x] ∧
      t.filter = (s.filter.ended.joined x false).slotted := by
  obtain ⟨x, u, ran, kind, -, output, filter⟩ := exec_takes (.inl raster) receiving
  obtain rfl := Host.Outcome.next.inj (ran.symm.trans run)
  have is : x.isRaster = true := by
    rw [← kind] at raster
    cases x <;> simp [FwdSymbol.rasterKind, FwdSymbol.isRaster] at raster ⊢
  refine ⟨x, kind, ?_, by rw [outputSlot_filter, filter, after_raster is]; rfl⟩
  refine symbol_filter_forwardStream output filter ?_ ?_ rfl rfl rfl ?_
  · rintro rfl; cases is
  · rintro rfl; cases is
  · cases x <;> simp [FwdSymbol.isRaster, FwdOutput.isContent] at is ⊢

end

end Sys2Proof.Machine

namespace Sys2Proof.ForwardChannel

open Sys2Proof.Machine

/-- Settles O55: the filter, the stream and the events behind each of the symbols that end an open packet, and behind a link down. -/
theorem openPacketsEndCountedOnce : Obligations.OpenPacketsEndCountedOnce := by
  intro s receiving legal tally ends
  have counted := ended_truncTally legal
  have released : heldPart s.filter.ended.holdQueue = [] := (ended_legal legal).notHeld (by simp [ended_reception])
  have closed : s.filter.reception ≠ .none → s.filter.ended.byteCount = 0 := fun some => by
    rw [ended_byteCount, if_neg some]
  have stands : ∀ {c t}, exec c s = .next t → carried c = none → isHardReset c = false →
      (c ≠ .packetEnd ∨ s.filter.reception ≠ .holding) → t.session = s.session ∧ (c ≠ .frameStart ∨ ¬s.ApplyDue →
        t.objects = s.objects ∧ t.generations = s.generations ∧ t.palettes = s.palettes ∧ t.images = s.images) := by
    intro c t run event going undecided
    obtain ⟨session, tables⟩ := exec_uncommanded run event going undecided
    exact ⟨session, fun other => ⟨(tables other).objects, (tables other).generations, (tables other).palettes,
      (tables other).images⟩⟩
  refine ⟨fun c row => ?_, fun undecided => ?_⟩
  · rcases row with raster | rfl | rfl
    · obtain ⟨x, u, run, -⟩ := exec_takes (.inl raster) receiving
      obtain ⟨x, kind, stream, filter⟩ := exec_takes_raster raster receiving run
      have event : carried c = none ∧ isHardReset c = false ∧ c ≠ .packetStart ∧ c ≠ .packetEnd ∧ c ≠ .forwardLinkDown := by
        cases c <;> simp [rasterOf, carried, isHardReset] at raster ⊢
      obtain ⟨event, going, start, last, link⟩ := event
      obtain ⟨session, tables⟩ := stands run event going (.inl last)
      obtain ⟨l, raises, cut⟩ := symbol_raises_cut (.inl raster) receiving run legal.truncStop (.inl last)
      refine ⟨_, ⟨run, ?_, ?_, session, tables, fun _ => ?_, l, raises.reports, cut⟩, fun _ => ⟨x, kind, stream⟩,
        fun is => absurd is start, fun is => absurd is link⟩
      · rw [filter]; exact counted
      · rw [filter]; exact ended_crcTally _
      · rw [filter]
        exact ⟨ended_reception _, (heldPart_afterSlot _).trans (by simp [Filter.joined, released]), closed⟩
    · obtain ⟨t, run, -⟩ := exec_symbol (c := .packetStart) rfl receiving
      obtain ⟨filter, stream, -⟩ := exec_packetSymbol rfl rfl receiving run
      obtain ⟨session, tables⟩ := stands run rfl rfl (.inl nofun)
      obtain ⟨l, raises, cut⟩ := symbol_raises_cut (.inr (.inl rfl)) receiving run legal.truncStop (.inl nofun)
      refine ⟨t, ⟨run, ?_, ?_, session, tables, fun other => absurd rfl other, l, raises.reports, cut⟩, nofun,
        fun _ => stream nofun nofun, nofun⟩
      · rw [filter]; exact counted
      · rw [filter]; exact ended_crcTally _
    · have run : exec .forwardLinkDown s = .next (loseForwardLink s) := congrArg _ (if_pos receiving)
      obtain ⟨session, tables⟩ := stands run rfl rfl (.inl nofun)
      have filter := loseForwardLink_filter s
      refine ⟨_, ⟨run, ?_, ?_, session, tables, fun _ => ?_, _, (loseForwardLink_raises legal.truncStop).reports, ?_⟩, nofun,
        nofun, fun _ => loseForwardLink_forwardStream rfl s⟩
      · rw [filter]; exact counted
      · rw [filter]; exact ended_crcTally _
      · rw [filter]
        exact ⟨ended_reception _, released, closed⟩
      · have counter : (loseForwardLink s).tracker.frameCounter = s.tracker.frameCounter := by
          simp [loseForwardLink, Tracker.loseSignal]
        rw [counter]
        refine Eq.trans (b := s.cutEvents s.tracker.frameCounter) ?_ rfl
        show linkEvents _ = _
        rw [linkEvents_append, linkEvents_append, linkEvents_frameEvents, linkEvents_cutEvents, List.append_nil]
        split <;> rfl
  · obtain ⟨t, run, -⟩ := exec_symbol (c := .packetEnd) rfl receiving
    obtain ⟨filter, stream, -⟩ := exec_packetSymbol rfl rfl receiving run
    obtain ⟨session, tables⟩ := stands run rfl rfl (.inr undecided)
    obtain ⟨l, raises, cut⟩ := symbol_raises_cut (.inr (.inr rfl)) receiving run legal.truncStop (.inr undecided)
    obtain ⟨trunc, crc, reception, held, count⟩ := packetEnded_undecided (address := s.unitAddress) legal undecided
    refine ⟨t, ⟨run, ?_, ?_, session, tables, fun _ => ?_, l, raises.reports, ?_⟩, stream nofun fun _ => undecided⟩
    · rw [filter]; exact trunc
    · rw [filter]; exact crc
    · rw [filter]
      exact ⟨reception, (heldPart_afterSlot _).trans held, count⟩
    · refine cut.trans ?_
      simp only [State.cutEvents, undecided, false_or]

end Sys2Proof.ForwardChannel
end

section
/-! A command reads no more of the packet filter than its two tallies (R134, R146): taken with another filter of the same tallies, it does
the same, and leaves that filter. -/

set_option Elab.async false

namespace Sys2Proof.Machine

/-- The state with another packet filter. -/
def State.refiltered (f : Filter) (s : State) : State := { s with filter := f }

/-- The answer with another packet filter in its state. -/
def Answer.refiltered (f : Filter) (a : Answer) : Answer := ⟨a.state.refiltered f, a.status, a.data⟩

section
variable {f : Filter} {p : List Byte} {s : State}

theorem refiltered_filter : (s.refiltered f).filter = f := rfl
theorem refiltered_session : (s.refiltered f).session = s.session := rfl

/-- A block that refuses on what it reads beside the filter refuses in both states alike. -/
theorem refiltered_ite {c : Prop} [Decidable c] {a b x y : Answer} (yes : x = a.refiltered f) (no : y = b.refiltered f) :
    (if c then x else y) = (if c then a else b).refiltered f := by
  split
  · exact yes
  · exact no

/-- A stage that decides on what it reads beside the filter decides in both states alike. -/
theorem refilteredState_ite {c : Prop} [Decidable c] {a b x y : State} (yes : x = a.refiltered f) (no : y = b.refiltered f) :
    (if c then x else y) = (if c then a else b).refiltered f := by
  split
  · exact yes
  · exact no

/-! ### Blocks -/

theorem commandSetEvents_refiltered : commandSetEvents p (s.refiltered f) = (commandSetEvents p s).refiltered f := by
  unfold commandSetEvents
  cases EventMask.ofByte (byteAt p 0) <;> rfl

theorem commandDefineObject_refiltered : commandDefineObject p (s.refiltered f) = (commandDefineObject p s).refiltered f := by
  refine refiltered_ite rfl (refiltered_ite rfl ?_)
  rw [show imageRefusal (s.refiltered f) (defineFields p).image = imageRefusal s (defineFields p).image from rfl]
  cases imageRefusal s (defineFields p).image with
  | some st => rfl
  | none =>
    dsimp only [State.refiltered]
    cases checkAnchorOption s.objects (byteAt p 0) (defineFields p).anchor <;> rfl

theorem commandMoveObject_refiltered : commandMoveObject p (s.refiltered f) = (commandMoveObject p s).refiltered f := by
  refine refiltered_ite rfl (refiltered_ite rfl ?_)
  dsimp only [State.refiltered]
  cases s.objects.stagedAt (byteAt p 0) <;> rfl

theorem commandSetObjectAttr_refiltered : commandSetObjectAttr p (s.refiltered f) = (commandSetObjectAttr p s).refiltered f := by
  refine refiltered_ite rfl (refiltered_ite rfl ?_)
  rw [show imageRefusalOption (s.refiltered f) (attrImage p) = imageRefusalOption s (attrImage p) from rfl]
  dsimp only [State.refiltered]
  cases s.objects.stagedAt (byteAt p 0) with
  | none => rfl
  | some o =>
    cases imageRefusalOption s (attrImage p) with
    | some st => rfl
    | none => cases checkAnchorOption s.objects (byteAt p 0) (attrAnchor p) <;> rfl

theorem commandDeleteObject_refiltered : commandDeleteObject p (s.refiltered f) = (commandDeleteObject p s).refiltered f := by
  refine refiltered_ite rfl (refiltered_ite rfl ?_)
  dsimp only [State.refiltered]
  cases s.objects.stagedAt (byteAt p 0) with
  | none => rfl
  | some o => exact refiltered_ite rfl rfl

theorem commandReadObject_refiltered : commandReadObject p (s.refiltered f) = (commandReadObject p s).refiltered f :=
  refiltered_ite rfl rfl

theorem commandCommit_refiltered : commandCommit p (s.refiltered f) = (commandCommit p s).refiltered f := by
  unfold commandCommit
  split
  · exact refiltered_ite rfl rfl
  · exact refiltered_ite rfl (refiltered_ite rfl rfl)
  · exact refiltered_ite rfl (refiltered_ite rfl rfl)
  · exact refiltered_ite rfl rfl

theorem commandCancelCommit_refiltered : commandCancelCommit (s.refiltered f) = (commandCancelCommit s).refiltered f :=
  refiltered_ite rfl rfl

theorem commandSetMode_refiltered : commandSetMode p (s.refiltered f) = (commandSetMode p s).refiltered f := by
  refine refiltered_ite rfl ?_
  cases outputModeOf (byteAt p 0) with
  | none => rfl
  | some m => exact refiltered_ite rfl rfl

theorem commandDiscard_refiltered : commandDiscard (s.refiltered f) = (commandDiscard s).refiltered f := refiltered_ite rfl rfl

theorem commandClearAll_refiltered : commandClearAll (s.refiltered f) = (commandClearAll s).refiltered f := by
  have locked : (s.refiltered f).isLocked = s.isLocked := rfl
  simp only [commandClearAll, locked]
  cases s.isLocked <;> rfl

theorem commandCreateImage_refiltered : commandCreateImage p (s.refiltered f) = (commandCreateImage p s).refiltered f :=
  refiltered_ite rfl (refiltered_ite rfl (refiltered_ite rfl (refiltered_ite rfl rfl)))

theorem commandLoadImage_refiltered : commandLoadImage p (s.refiltered f) = (commandLoadImage p s).refiltered f := by
  refine refiltered_ite rfl ?_
  dsimp only [State.refiltered]
  cases (s.images.entry (byteAt p 0)).image with
  | none => rfl
  | some im => exact refiltered_ite rfl (refiltered_ite rfl (refiltered_ite rfl rfl))

theorem commandRestartImage_refiltered : commandRestartImage p (s.refiltered f) = (commandRestartImage p s).refiltered f := by
  refine refiltered_ite rfl (refiltered_ite rfl (refiltered_ite rfl ?_))
  dsimp only [State.refiltered]
  cases (s.images.entry (byteAt p 0)).image with
  | none => rfl
  | some im => exact refiltered_ite rfl rfl

theorem commandReleaseImage_refiltered : commandReleaseImage p (s.refiltered f) = (commandReleaseImage p s).refiltered f := by
  refine refiltered_ite rfl (refiltered_ite rfl ?_)
  dsimp only [State.refiltered]
  cases (s.images.entry (byteAt p 0)).image with
  | none => rfl
  | some im => exact refiltered_ite rfl rfl

theorem commandImageInfo_refiltered : commandImageInfo p (s.refiltered f) = (commandImageInfo p s).refiltered f :=
  refiltered_ite rfl rfl

theorem commandWritePalette_refiltered : commandWritePalette p (s.refiltered f) = (commandWritePalette p s).refiltered f :=
  refiltered_ite rfl (refiltered_ite rfl (refiltered_ite rfl rfl))

theorem commandReadPalette_refiltered : commandReadPalette p (s.refiltered f) = (commandReadPalette p s).refiltered f :=
  refiltered_ite rfl rfl

/-! ### Any command -/

section
variable (crc : f.crcTally = s.filter.crcTally) (trunc : f.truncTally = s.filter.truncTally)
include crc trunc

theorem statusRecord_refiltered : statusRecord (s.refiltered f) = statusRecord s := by
  unfold statusRecord
  rw [refiltered_filter, crc, trunc]
  rfl

theorem commandStatus_refiltered : commandStatus (s.refiltered f) = (commandStatus s).refiltered f :=
  congrArg (Answer.mk (s.refiltered f) .ok) (statusRecord_refiltered crc trunc)

theorem dispatch_refiltered (code : Byte) (p : List Byte) :
    dispatch code p (s.refiltered f) = (dispatch code p s).refiltered f := by
  refine refiltered_ite rfl (refiltered_ite rfl (refiltered_ite rfl
    (refiltered_ite (commandStatus_refiltered crc trunc) (refiltered_ite commandSetEvents_refiltered
    (refiltered_ite commandDefineObject_refiltered (refiltered_ite commandMoveObject_refiltered
    (refiltered_ite commandSetObjectAttr_refiltered (refiltered_ite commandDeleteObject_refiltered
    (refiltered_ite commandReadObject_refiltered (refiltered_ite commandCommit_refiltered
    (refiltered_ite commandCancelCommit_refiltered (refiltered_ite commandSetMode_refiltered
    (refiltered_ite commandDiscard_refiltered (refiltered_ite commandClearAll_refiltered
    (refiltered_ite commandCreateImage_refiltered (refiltered_ite commandLoadImage_refiltered
    (refiltered_ite commandRestartImage_refiltered (refiltered_ite commandReleaseImage_refiltered
    (refiltered_ite commandImageInfo_refiltered (refiltered_ite commandWritePalette_refiltered
      commandReadPalette_refiltered))))))))))))))))))))

theorem acceptCommand_refiltered (seq code : Byte) (p : List Byte) :
    acceptCommand seq code p (s.refiltered f) = (acceptCommand seq code p s).refiltered f := by
  have answer := dispatch_refiltered (s := consume seq s) crc trunc code p
  have consumed : consume seq (s.refiltered f) = (consume seq s).refiltered f := rfl
  simp only [acceptCommand, consumed, answer]
  rfl

theorem sequenceStage_refiltered (seq code : Byte) (p : List Byte) :
    sequenceStage seq code p (s.refiltered f) = (sequenceStage seq code p s).refiltered f := by
  have accepts := acceptCommand_refiltered crc trunc seq code p
  have last : repeatOf seq (s.refiltered f) = repeatOf seq s := rfl
  unfold sequenceStage
  rw [refiltered_session, last]
  cases s.session.sessionState with
  | unsynced => exact refilteredState_ite accepts rfl
  | synced =>
    cases repeatOf seq s with
    | some a => rfl
    | none => exact refilteredState_ite accepts rfl

theorem handOver_refiltered (how : Addressing) (seq code : Byte) (p : List Byte) :
    handOver how seq code p (s.refiltered f) = (handOver how seq code p s).refiltered f := by
  cases how with
  | unicast =>
    have stage := sequenceStage_refiltered (s := reserveSlot s) crc trunc seq code p
    have reserved : reserveSlot (s.refiltered f) = (reserveSlot s).refiltered f := rfl
    exact refilteredState_ite rfl (by rw [reserved, stage])
  | broadcast =>
    have answer := dispatch_refiltered crc trunc code p
    refine refilteredState_ite ?_ rfl
    rw [answer]
    exact refilteredState_ite rfl rfl

end

end

end Sys2Proof.Machine
end

section
/-! The PACKET_END of a held packet: its checks, its tallies and its command (R124 to R126, R131, R134). -/

set_option Elab.async false

namespace Sys2Proof.Machine

section
variable {bytes : List Byte}

/-! ### The checks -/

theorem checkPacket_badLength (fails : ¬(8 ≤ bytes.length ∧ bytes.length = 6 + u16At bytes 4 + 2)) :
    checkPacket bytes = .badLength := by
  unfold checkPacket
  dsimp only
  rw [if_pos]
  simp only [Bool.or_eq_true, decide_eq_true_eq, bne_iff_ne]
  omega

theorem checkPacket_fits (fits : 8 ≤ bytes.length ∧ bytes.length = 6 + u16At bytes 4 + 2) : checkPacket bytes =
    if crcBytes (bytes.take (bytes.length - 2)) = bytes.drop (bytes.length - 2) then
      .good ((bytes.getD 1 0).setWidth 4) (bytes.getD 2 0) (bytes.getD 3 0) ((bytes.drop 6).take (u16At bytes 4))
    else .badCrc := by
  unfold checkPacket
  dsimp only
  rw [if_neg]
  · simp only [bne_iff_ne, ne_eq, ite_not]
  · simp only [Bool.or_eq_true, decide_eq_true_eq, bne_iff_ne]
    omega

/-- The destination is the low half of byte 1. -/
theorem destination_eq (a : BitVec 4) : (bytes.getD 1 0).setWidth 4 = a ↔ byteAt bytes 1 % 16 = a.toNat := by
  rw [← BitVec.toNat_inj, BitVec.toNat_setWidth]
  rfl

end

/-! ### The filter behind the decision -/

section
variable {f : Filter} {address : BitVec 4}

theorem decided_byteCount (f : Filter) (address : BitVec 4) : (f.decided address).byteCount = 0 := by
  unfold Filter.decided
  dsimp only
  split
  · rfl
  · rfl
  · split <;> rfl

/-- What was held leaves or is replaced, its PACKET_END with it: some symbol waits, and none is held. -/
theorem decided_holdQueue (f : Filter) (address : BitVec 4) :
    (f.decided address).holdQueue ≠ [] ∧ heldPart (f.decided address).holdQueue = [] := by
  have released : ∀ q : List QueuedSymbol, q ≠ [] → releaseHeld q ≠ [] ∧ heldPart (releaseHeld q) = [] := fun q some =>
    ⟨by simpa [releaseHeld] using some, heldPart_releaseHeld q⟩
  have idle : ∀ q : List QueuedSymbol, q ≠ [] → idleHeld q ≠ [] ∧ heldPart (idleHeld q) = [] := fun q some =>
    ⟨by simpa [idleHeld] using some, heldPart_idleHeld q⟩
  have closed : (f.joined .packetEnd true).holdQueue ≠ [] := by simp [Filter.joined]
  unfold Filter.decided
  dsimp only
  split
  · exact released _ closed
  · exact released _ closed
  · split
    · exact idle _ closed
    · exact released _ closed

theorem decided_badLength (legal : f.Legal) (check : checkPacket (heldBytes f.holdQueue) = .badLength) :
    (f.decided address).crcTally = f.crcTally ∧ (f.decided address).truncTally = min 65535 (f.truncTally + 1) := by
  simp only [Filter.decided, check]
  exact ⟨rfl, satSucc_eq_min legal.truncStop⟩

theorem decided_badCrc (legal : f.Legal) (check : checkPacket (heldBytes f.holdQueue) = .badCrc) :
    (f.decided address).crcTally = min 65535 (f.crcTally + 1) ∧ (f.decided address).truncTally = f.truncTally := by
  simp only [Filter.decided, check]
  exact ⟨satSucc_eq_min legal.crcStop, rfl⟩

theorem decided_good {dest : BitVec 4} {seq code : Byte} {p : List Byte}
    (check : checkPacket (heldBytes f.holdQueue) = .good dest seq code p) :
    (f.decided address).crcTally = f.crcTally ∧ (f.decided address).truncTally = f.truncTally := by
  simp only [Filter.decided, check]
  split <;> exact ⟨rfl, rfl⟩

end

/-! ### The slot of the PACKET_END -/

section
variable {s u v : State}

/-- What a slot of FWD_OUT touches. -/
theorem outputSlot_frame (v : State) : outputSlot v = { v with
    filter := (outputSlot v).filter
    fwdSent := (outputSlot v).fwdSent
    drains := (outputSlot v).drains
    fwdOutUp := (outputSlot v).fwdOutUp } := by
  have counted : ∀ w : State, countDrained w = { w with
      fwdSent := (countDrained w).fwdSent
      drains := (countDrained w).drains
      fwdOutUp := (countDrained w).fwdOutUp } := fun w => by
    unfold countDrained finishDrain
    repeat' split
    all_goals rfl
  rcases slot_leaves_or_idles v with ⟨e, q, waits, released⟩ | idles
  · rw [outputSlot_leaves waits released, counted]
  · rw [outputSlot_idles idles]
    rfl

/-- With the head released the slot carries it: the symbols stand, and without a drain the stream does. -/
theorem outputSlot_released (some : v.filter.holdQueue ≠ []) (released : heldPart v.filter.holdQueue = []) :
    (outputSlot v).symbolStream = v.symbolStream ∧ (v.drains = [] → (outputSlot v).forwardStream = v.forwardStream ∧
      (outputSlot v).drains = [] ∧ (outputSlot v).fwdOutUp = v.fwdOutUp) := by
  obtain ⟨e, q, waits⟩ := List.exists_cons_of_ne_nil some
  have head : e.held = false := held_false_of_heldPart released (by rw [waits]; simp)
  rw [outputSlot_leaves waits head]
  refine ⟨?_, fun none => ?_⟩
  · refine (filter_forwardStream_countDrained rfl rfl _).trans ?_
    simp [State.symbolStream, State.forwardStream, waits]
  · rw [countDrained_none (by exact none)]
    exact ⟨by simp [State.forwardStream, waits], none, rfl⟩

theorem trackSymbol_packetEnd (outside : s.tracker.inLine = false) : trackSymbol .packetEnd s = s := by
  have measured : s.tracker.measure .packetEnd = s.tracker := by
    simp [Tracker.measure, Tracker.irregularAt, outside, FwdSymbol.isRaster]
  unfold trackSymbol
  cases s.tracker.rasterState with
  | noSignal => rfl
  | disrupted => rfl
  | acquiring =>
    simp only [measured, reduceCtorEq, false_and, if_false]
    rfl
  | locked =>
    simp only [faultAt_outside (x := .packetEnd) rfl outside]
    rfl

/-- The PACKET_END of a held packet is its decision, and a slot of FWD_OUT. -/
theorem exec_decides (receiving : s.receiving = true) (outside : s.tracker.inLine = false)
    (holding : s.filter.reception = .holding) : exec .packetEnd s = .next (outputSlot (decidePacket s)) := by
  refine congrArg Host.Outcome.next ((onSymbol_receiving s _ receiving).trans (congrArg outputSlot ?_))
  rw [trackSymbol_packetEnd outside]
  simp only [filterPacketEnd, holding]

theorem decidePacket_output (holding : s.filter.reception = .holding) : SameOutput s (decidePacket s) := by
  have output := filterPacketEnd_output s
  simpa only [filterPacketEnd, holding] using output

/-- A packet that passes stands in the stream with its PACKET_END behind it. -/
theorem decidePacket_passes (holding : s.filter.reception = .holding)
    (pass : ∀ seq code p, checkPacket (heldBytes s.filter.holdQueue) = .good s.unitAddress seq code p → s.unitAddress = 15) :
    (decidePacket s).forwardStream = s.forwardStream ++ [.symbol .packetEnd] :=
  forwardStream_joined (decidePacket_output holding).fwdSent (by rw [decidePacket_filter, decided_symbols pass])

/-- This unit's own packet leaves as IDLEs (R126). -/
theorem decidePacket_idles {seq code : Byte} {p : List Byte} (legal : s.filter.Legal) (holding : s.filter.reception = .holding)
    (one : s.unitAddress ≠ 15) (check : checkPacket (heldBytes s.filter.holdQueue) = .good s.unitAddress seq code p) :
    (decidePacket s).forwardStream = s.fwdSent ++ (releasedPart s.filter.holdQueue).map (fun e => .symbol e.symbol) ++
      List.replicate ((heldBytes s.filter.holdQueue).length + 2) (.symbol .idle) := by
  rw [State.forwardStream, (decidePacket_output holding).fwdSent, decidePacket_filter, decided_own_holdQueue one check,
    idleHeld_closed legal holding]
  simp

/-- A bad packet is counted, and reported as it is counted. -/
theorem decidePacket_counts_truncated (legal : s.filter.Legal)
    (check : checkPacket (heldBytes s.filter.holdQueue) = .badLength) : decidePacket s = { s with
      filter := (decidePacket s).filter
      reports := s.raised [.link ⟨.truncated, s.filter.crcTally, min 65535 (s.filter.truncTally + 1),
        s.tracker.frameCounter⟩] } := by
  rw [decidePacket_badLength check, ← satSucc_eq_min legal.truncStop]
  rfl

theorem decidePacket_counts_crc (legal : s.filter.Legal)
    (check : checkPacket (heldBytes s.filter.holdQueue) = .badCrc) : decidePacket s = { s with
      filter := (decidePacket s).filter
      reports := s.raised [.link ⟨.crc, min 65535 (s.filter.crcTally + 1), s.filter.truncTally,
        s.tracker.frameCounter⟩] } := by
  rw [decidePacket_badCrc check, ← satSucc_eq_min legal.crcStop]
  rfl

/-- The command of a packet is the row the packet spells, on the state as it stands (R134). -/
theorem handOver_spelled {f : Filter} {how : Addressing} {seq code : Byte} {p : List Byte} (reach : s.takesCommands = true)
    (crc : f.crcTally = s.filter.crcTally) (trunc : f.truncTally = s.filter.truncTally)
    (run : exec (commandOf how seq code p) s = .next u) : handOver how seq code p (s.refiltered f) = u.refiltered f := by
  rw [exec_commandOf, takeCommand, if_pos reach] at run
  rw [handOver_refiltered crc trunc, Host.Outcome.next.inj run]

end

end Sys2Proof.Machine

namespace Sys2Proof.ForwardChannel

open Sys2Proof.Machine

/-- Settles O54, by the outcome of the three checks. -/
theorem packetEndDecidesTheHeldPacket : Obligations.PacketEndDecidesTheHeldPacket := by
  intro s receiving legal holdingLegal holding bytes n fits crcMatches dest spelled streams passed crc trunc counted
  obtain ⟨outside, addressed⟩ := holdingLegal holding
  have one : s.unitAddress ≠ 15 := by simpa [State.addressed] using addressed
  have reach : s.takesCommands = true := by simp [State.takesCommands, receiving, addressed]
  have output := decidePacket_output holding
  have filter := decidePacket_filter s
  obtain ⟨tracker, compositor, -⟩ := decidePacket_front s
  obtain ⟨some, released⟩ := decided_holdQueue s.filter s.unitAddress
  rw [← filter] at some released
  obtain ⟨symbols, undrained⟩ := outputSlot_released some released
  have frame := outputSlot_frame (decidePacket s)
  have shape : ∀ {l}, (decidePacket s).forwardStream = l → streams (outputSlot (decidePacket s)) l := fun same => by
    refine ⟨symbols.trans (congrArg _ same), fun none => ?_⟩
    obtain ⟨stands, -⟩ := undrained (output.drains.trans none)
    exact stands.trans same
  have tallies : (outputSlot (decidePacket s)).filter.crcTally = (s.filter.decided s.unitAddress).crcTally ∧
      (outputSlot (decidePacket s)).filter.truncTally = (s.filter.decided s.unitAddress).truncTally := by
    rw [outputSlot_filter, filter]
    exact ⟨rfl, rfl⟩
  obtain ⟨crcTally, truncTally⟩ := tallies
  refine ⟨_, exec_decides receiving outside holding, ?_, ?_, ?_, by simp [tracker], by simp [compositor], fun none => ?_,
    fun bad => ?_, fun good bad => ?_, fun good sound => ?_⟩
  · rw [outputSlot_reception, filter, decided_reception]
  · rw [outputSlot_filter, filter]
    exact decided_byteCount _ _
  · rw [outputSlot_filter]
    exact (heldPart_afterSlot _).trans released
  · obtain ⟨-, idle, up⟩ := undrained (output.drains.trans none)
    exact ⟨idle, up.trans output.fwdOutUp⟩
  · have check := checkPacket_badLength bad
    obtain ⟨crcStands, truncCounts⟩ := decided_badLength (address := s.unitAddress) legal check
    refine ⟨shape (decidePacket_passes holding fun _ _ _ is => ?_), crcTally.trans crcStands, truncTally.trans truncCounts, ?_⟩
    · cases check.symm.trans is
    · rw [frame, decidePacket_counts_truncated legal check]
  · have check := (checkPacket_fits good).trans (if_neg bad)
    obtain ⟨crcCounts, truncStands⟩ := decided_badCrc (address := s.unitAddress) legal check
    refine ⟨shape (decidePacket_passes holding fun _ _ _ is => ?_), crcTally.trans crcCounts, truncTally.trans truncStands, ?_⟩
    · cases check.symm.trans is
    · rw [frame, decidePacket_counts_crc legal check]
  · have check := (checkPacket_fits good).trans (if_pos sound)
    obtain ⟨crcStands, truncStands⟩ := decided_good (address := s.unitAddress) check
    refine ⟨crcTally.trans crcStands, truncTally.trans truncStands, fun all => ?_, fun own => ?_, fun one other => ?_⟩
    · rw [(destination_eq 15).mpr all] at check
      refine ⟨shape (decidePacket_passes holding fun _ _ _ is => ?_), fun u run => ?_⟩
      · exact (PacketCheck.good.inj (check.symm.trans is)).1.symm
      · have taken : decidePacket s = u.refiltered (releaseAll s.packetClosed).filter :=
          (decidePacket_broadcast check).trans (handOver_spelled (s := s) (f := (releaseAll s.packetClosed).filter) reach rfl rfl run)
        rw [frame, taken]
        rfl
    · rw [(destination_eq s.unitAddress).mpr own] at check
      refine ⟨shape (decidePacket_idles legal holding one check), fun u run => ?_⟩
      have taken : decidePacket s = u.refiltered (removeHeld s.packetClosed).filter :=
        (decidePacket_own check one).trans (handOver_spelled (s := s) (f := (removeHeld s.packetClosed).filter) reach rfl rfl run)
      rw [frame, taken]
      rfl
    · refine ⟨shape (decidePacket_passes holding fun _ _ _ is => ?_), ?_⟩
      · exact absurd ((destination_eq s.unitAddress).mp (PacketCheck.good.inj (check.symm.trans is)).1) other
      · have passes := decidePacket_other check ((destination_eq 15).not.mpr one) ((destination_eq s.unitAddress).not.mpr other)
        rw [frame, passes]
        rfl

end Sys2Proof.ForwardChannel
end

section
/-! What a host command does to the session's own state: its sequence numbers, its cached acknowledgement and its tallies (R133,
R137 to R143, R145, R147). -/

namespace Sys2Proof.Machine

/-! ### The changes of the session -/

/-- A unicast command that met a full report queue, counted (R137). -/
def Session.discarded (seq : Byte) (x : Session) : Session :=
  { x with
    discardTally := satSucc 255 x.discardTally
    firstDiscarded := if x.discardTally = 0 then some seq else x.firstDiscarded }

/-- The discard fields reported by an acknowledgement, which clears them (R137, R142). -/
def Session.reported (x : Session) : Session := { x with discardTally := 0, firstDiscarded := none }

/-- A broadcast dropped, counted (R143). -/
def Session.refused (x : Session) : Session := { x with refusalTally := satSucc 255 x.refusalTally }

theorem countDiscard_eq (seq : Byte) (s : State) : countDiscard seq s = { s with session := s.session.discarded seq } := rfl

theorem countRefusal_eq (s : State) : countRefusal s = { s with session := s.session.refused } := rfl

theorem fillSlot_session (a : Ack) (isRepeat : Bool) (s : State) :
    (fillSlot a isRepeat s).session = s.session.reported := rfl

/-- A block's answer leaves the session alone, but for the mask that SET_EVENTS puts in place (R147). -/
theorem dispatch_session (code : Byte) (p : List Byte) (s : State) :
    ∃ m, (dispatch code p s).state.session = { s.session with mask := m } ∧ (code ≠ codeSetEvents → m = s.session.mask) := by
  have answered := dispatch_answered code p s
  generalize (dispatch code p s).state = t at answered ⊢
  cases answered with
  | events m row => exact ⟨m, rfl, fun other => absurd row other⟩
  | _ => exact ⟨s.session.mask, rfl, fun _ => rfl⟩

/-- An accepted command: the acceptance, and at most a new mask. -/
theorem acceptCommand_session (seq code : Byte) (p : List Byte) (s : State) :
    ∃ m a, a.seq = seq ∧ (acceptCommand seq code p s).session = { s.session.accepted a with mask := m } := by
  obtain ⟨m, answered, -⟩ := dispatch_session code p (consume seq s)
  refine ⟨m, ⟨seq, code, (dispatch code p (consume seq s)).status, (dispatch code p (consume seq s)).data⟩, rfl, ?_⟩
  simp only [acceptCommand, fillSlot_session, answered]
  rfl

/-! ### Broadcasts that may be carried out -/

theorem lengthFits_commit (p : List Byte) : lengthFits codeCommit p = true ↔ p.length = 3 := beq_iff_eq

theorem lengthFits_clearAll (p : List Byte) : lengthFits codeClearAll p = true ↔ p = [] :=
  beq_iff_eq.trans List.length_eq_zero_iff

/-- COMMIT NEXT, COMMIT AT and CLEAR_ALL alone may be carried out as broadcasts (R143). -/
theorem broadcastable_iff (code : Byte) (p : List Byte) : broadcastable code p = true ↔
    (code = codeCommit ∧ p.length = 3 ∧ byteAt p 0 < 2) ∨ (code = codeClearAll ∧ p = []) := by
  simp only [broadcastable, Bool.and_eq_true, Bool.or_eq_true, decide_eq_true_eq]
  constructor
  · rintro ⟨fits, rfl | ⟨rfl, mode⟩⟩
    · exact .inr ⟨rfl, (lengthFits_clearAll p).mp fits⟩
    · exact .inl ⟨rfl, (lengthFits_commit p).mp fits, mode⟩
  · rintro (⟨rfl, length, mode⟩ | ⟨rfl, empty⟩)
    · exact ⟨(lengthFits_commit p).mpr length, .inr ⟨rfl, mode⟩⟩
    · exact ⟨(lengthFits_clearAll p).mpr empty, .inl rfl⟩

theorem broadcastable_session {code : Byte} {p : List Byte} (may : broadcastable code p = true) (s : State) :
    (dispatch code p s).state.session = s.session := by
  have other : code ≠ codeSetEvents := by
    rcases (broadcastable_iff code p).mp may with ⟨rfl, -⟩ | ⟨rfl, -⟩ <;> decide
  obtain ⟨m, answered, mask⟩ := dispatch_session code p s
  rw [answered, mask other]

/-! ### What becomes of the session when a command is handed over -/

/-- The five outcomes of a host command for the session. -/
inductive SessionChange (seq : Byte) (x : Session) : Session → Prop
  /-- A unicast that met a full report queue (R137). -/
  | discarded : SessionChange seq x (x.discarded seq)
  /-- A unicast answered and not accepted: NAK SEQUENCE, or the cached acknowledgement again (R138 to R140). -/
  | reported : SessionChange seq x x.reported
  /-- A unicast accepted, and the mask a SET_EVENTS leaves (R135, R147). -/
  | accepted (m : EventMask) (a : Ack) (number : a.seq = seq) : SessionChange seq x { x.accepted a with mask := m }
  /-- A broadcast carried out (R143). -/
  | stands : SessionChange seq x x
  /-- A broadcast dropped (R143). -/
  | refused : SessionChange seq x x.refused

theorem acceptCommand_change (seq code : Byte) (p : List Byte) (s : State) :
    SessionChange seq s.session (acceptCommand seq code p s).session := by
  obtain ⟨m, a, number, accepted⟩ := acceptCommand_session seq code p s
  exact accepted ▸ .accepted m a number

theorem sequenceStage_change (seq code : Byte) (p : List Byte) (s : State) :
    SessionChange seq s.session (sequenceStage seq code p s).session := by
  unfold sequenceStage
  split
  · split
    · exact acceptCommand_change seq code p s
    · exact .reported
  · split
    · exact .reported
    · split
      · exact acceptCommand_change seq code p s
      · exact .reported

theorem takeBroadcast_change (seq code : Byte) (p : List Byte) (s : State) :
    SessionChange seq s.session (takeBroadcast code p s).session := by
  unfold takeBroadcast
  split
  · next may =>
    dsimp only
    split
    · exact broadcastable_session may s ▸ .stands
    · exact .refused
  · exact .refused

theorem handOver_change (how : Addressing) (seq code : Byte) (p : List Byte) (s : State) :
    SessionChange seq s.session (handOver how seq code p s).session := by
  cases how with
  | unicast =>
    simp only [handOver, takeUnicast]
    split
    · exact .discarded
    · exact sequenceStage_change seq code p (reserveSlot s)
  | broadcast => exact takeBroadcast_change seq code p s

/-! ### The law is kept (R133) -/

section
variable {x y : Session} {seq : Byte}

/-- With the tally above 0 a discard leaves the first number as it stands, and at 0 it sets it. -/
theorem discarded_legal (legal : x.Legal) : (x.discarded seq).Legal where
  unsynced := legal.unsynced
  synced := legal.synced
  first := by
    have first := legal.first
    by_cases none : x.discardTally = 0
    · simp [Session.discarded, satSucc, none]
    · simp only [Session.discarded, satSucc, if_neg none, first]
      split <;> omega
  discardStop := satSucc_le legal.discardStop
  refusalStop := legal.refusalStop

theorem reported_legal (legal : x.Legal) : x.reported.Legal where
  unsynced := legal.unsynced
  synced := legal.synced
  first := by simp [Session.reported]
  discardStop := Nat.zero_le 255
  refusalStop := legal.refusalStop

theorem accepted_legal (legal : x.Legal) (m : EventMask) (a : Ack) : Session.Legal { x.accepted a with mask := m } where
  unsynced := nofun
  synced := fun _ => ⟨a.seq, a, rfl, rfl, rfl, rfl⟩
  first := by simp [Session.accepted]
  discardStop := Nat.zero_le 255
  refusalStop := legal.refusalStop

theorem refused_legal (legal : x.Legal) : x.refused.Legal where
  unsynced := legal.unsynced
  synced := legal.synced
  first := legal.first
  discardStop := legal.discardStop
  refusalStop := satSucc_le legal.refusalStop

theorem SessionChange.legal (change : SessionChange seq x y) (legal : x.Legal) : y.Legal := by
  cases change with
  | discarded => exact discarded_legal legal
  | reported => exact reported_legal legal
  | accepted m a => exact accepted_legal legal m a
  | stands => exact legal
  | refused => exact refused_legal legal

end

/-- Any command leaves the session, changes it as a host command does, or resets it. -/
theorem exec_sessionLegal {c : Instr} {s t : State} (run : exec c s = .next t) (legal : s.session.Legal) : t.session.Legal := by
  cases exec_effect run with
  | quiet session => exact session ▸ legal
  | apply _ _ _ session => exact session ▸ legal
  | host how seq code p _ _ eq => exact eq ▸ (handOver_change how seq code p s).legal legal
  | packet how seq code p u _ _ _ found _ eq =>
    have stands : u.session = s.session := by
      rw [found.eq]
      exact trackSymbol_session s .packetEnd
    rw [eq, outputSlot_session]
    exact (handOver_change how seq code p u).legal (stands ▸ legal)
  | reset straps _ u eq => exact eq ▸ session_reset_legal

end Sys2Proof.Machine

namespace Sys2Proof.CommandSession

open Sys2Proof.Machine

/-- Settles O6: a command leaves the session, makes one of the five changes of a host command, each of which keeps the law, or resets
it. -/
theorem stepKeepsSessionLegal : Obligations.StepKeepsSessionLegal := by
  unfold Obligations.StepKeepsSessionLegal
  intro s t legal run
  unfold step at run
  split at run
  · exact Host.Outcome.next.inj run ▸ legal
  · exact exec_sessionLegal run legal

end Sys2Proof.CommandSession
end

section
/-! Unicast commands at the sequence stage: those answered without being accepted, and those accepted by a block that changes nothing
(R135 to R141, R145, R164). -/

namespace Sys2Proof.Machine

/-! ### Acknowledgements in the reserved slot -/

/-- An acknowledgement that accepts no command leaves the report and the cleared discard fields alone behind (R137, R142). -/
theorem fillSlot_answered {s : State} (unreserved : ∀ x ∈ s.reports.queue, x ≠ .reserved) (a : Ack) (isRepeat : Bool) :
    fillSlot a isRepeat (reserveSlot s) = s.answered a isRepeat :=
  fillSlot_eq unreserved rfl

/-- A command that its block answers without a change leaves its acceptance alone behind (R142). -/
theorem acceptCommand_unchanged {s : State} {seq code : Byte} {p d : List Byte} {st : Status}
    (unreserved : ∀ x ∈ s.reports.queue, x ≠ .reserved) (answer : dispatch code p (s.opened seq) = ⟨s.opened seq, st, d⟩) :
    acceptCommand seq code p (reserveSlot s) = s.accepted ⟨seq, code, st, d⟩ :=
  accept_quiet unreserved answer rfl rfl rfl

/-! ### The sequence stage, branch by branch (R138 to R140, R145) -/

section
variable {s : State} {seq code : Byte}

theorem sequenceStage_unsynced (unsynced : s.session.sessionState = .unsynced) (other : code ≠ codeHello) (p : List Byte) :
    sequenceStage seq code p s = answerSequence seq code s := by
  simp only [sequenceStage, unsynced, if_neg other]

theorem sequenceStage_repeat {a : Ack} (synced : s.session.sessionState = .synced) (last : s.session.last = some seq)
    (cached : s.session.cached = some a) (p : List Byte) : sequenceStage seq code p s = fillSlot a true s := by
  simp only [sequenceStage, synced, repeatOf, last, if_true, cached]

theorem sequenceStage_unexpected (synced : s.session.sessionState = .synced) (last : s.session.last ≠ some seq)
    (expected : s.session.expected ≠ some seq) (other : code ≠ codeHello) (p : List Byte) :
    sequenceStage seq code p s = answerSequence seq code s := by
  simp only [sequenceStage, synced, repeatOf, if_neg last, expected, other, or_self, if_false]

/-- HELLO is accepted in UNSYNCED, and in SYNCED under every number but L. -/
theorem sequenceStage_hello
    (fresh : s.session.sessionState = .unsynced ∨ s.session.sessionState = .synced ∧ s.session.last ≠ some seq) (p : List Byte) :
    sequenceStage seq codeHello p s = acceptCommand seq codeHello p s := by
  rcases fresh with unsynced | ⟨synced, last⟩
  · simp only [sequenceStage, unsynced, if_true]
  · simp only [sequenceStage, synced, repeatOf, if_neg last, or_true, if_true]

/-- A unicast that meets a free report slot reaches the sequence stage with that slot reserved (R135, R136). -/
theorem exec_unicast {i : Instr} {p : List Byte} (row : carried i = some (.unicast, seq, code, p)) (reach : s.takesCommands = true)
    (room : s.reports.queue.length < 8) : exec i s = .next (sequenceStage seq code p (reserveSlot s)) := by
  rw [exec_host row, take_unicast reach room]

end

/-! ### HELLO (R145) -/

theorem lengthFits_hello (p : List Byte) : lengthFits codeHello p = true ↔ p = [] :=
  beq_iff_eq.trans List.length_eq_zero_iff

/-- The identity reply of a unit that expects `e` next. -/
theorem identityReply_eq {s : State} {e : Byte} (expected : s.session.expected = some e) : identityReply s =
    [0x4B, 0x16, 1, s.unitAddress.setWidth 8, e, 64, 128, 8, 0, 128, 8, 1, 0, 1, 0, 12, 8, 0, 8, 4] := by
  simp only [identityReply, expected]
  rfl

/-- HELLO returns the identity reply and changes nothing itself. -/
theorem dispatch_hello_empty (s : State) : dispatch codeHello [] s = ⟨s, .ok, identityReply s⟩ := dispatch_hello s rfl

theorem dispatch_hello_payload {p : List Byte} (payload : p ≠ []) (s : State) : dispatch codeHello p s = ⟨s, .length, []⟩ :=
  dispatch_length (by decide) (Bool.eq_false_iff.mpr ((lengthFits_hello p).not.mpr payload)) s

end Sys2Proof.Machine

namespace Sys2Proof.CommandSession

open Sys2Proof.Machine

/-- Settles O21: a full queue meets the discard of stage 1, and each other case is one branch of the sequence stage. -/
theorem unacceptedUnicastsReachNoBlock : Obligations.UnacceptedUnicastsReachNoBlock := by
  unfold Obligations.UnacceptedUnicastsReachNoBlock
  intro s i seq code p row reach legal
  refine ⟨fun full => ?_, fun room unreserved other unsynced => ?_, fun e room unreserved other synced expected differs last => ?_,
    fun a room unreserved synced last cached => ?_⟩
  · rw [exec_host row, take_full reach full, countDiscard_eq, Session.discarded, satSucc_eq_min legal.discardStop]
  · obtain ⟨none, -, -⟩ := legal.unsynced unsynced
    have data : sequenceData (reserveSlot s) = [0, 0] := by simp [sequenceData, unsynced, none, SessionState.code]
    rw [exec_unicast row reach room, sequenceStage_unsynced (s := reserveSlot s) unsynced other, answerSequence, data,
      fillSlot_answered unreserved]
  · have unexpected : s.session.expected ≠ some seq := fun is => differs (Option.some.inj (is.symm.trans expected))
    have data : sequenceData (reserveSlot s) = [1, e] := by simp [sequenceData, synced, expected, SessionState.code]
    rw [exec_unicast row reach room, sequenceStage_unexpected (s := reserveSlot s) synced last unexpected other, answerSequence,
      data, fillSlot_answered unreserved]
  · rw [exec_unicast row reach room, sequenceStage_repeat (s := reserveSlot s) synced last cached, fillSlot_answered unreserved]

/-- Settles O22: dispatch refuses both before any block is reached, and the number is consumed as for every accepted command. -/
theorem unknownAndMisfittingCommandsAreRefused : Obligations.UnknownAndMisfittingCommandsAreRefused := by
  unfold Obligations.UnknownAndMisfittingCommandsAreRefused
  intro s i seq code p row expects
  exact ⟨fun unlisted => exec_answered row expects (dispatch_unknown unlisted p _),
    fun listed misfits => exec_answered row expects (dispatch_length listed misfits _)⟩

/-- Settles O24: the sequence stage accepts HELLO in every case but the number L, and its number is consumed before the reply names
the one expected next. -/
theorem helloSynchronisesTheSession : Obligations.HelloSynchronisesTheSession := by
  unfold Obligations.HelloSynchronisesTheSession
  intro s seq p reach room unreserved fresh
  have accepts {st : Status} {d : List Byte} (answer : dispatch codeHello p (s.opened seq) = ⟨s.opened seq, st, d⟩) :
      exec (.hello .unicast seq p) s = .next (s.accepted ⟨seq, codeHello, st, d⟩) := by
    rw [exec_unicast rfl reach room, sequenceStage_hello (s := reserveSlot s) fresh, acceptCommand_unchanged unreserved answer]
  refine ⟨fun empty => accepts ?_, fun payload => accepts (dispatch_hello_payload payload _)⟩
  have reply := identityReply_eq (s := s.opened seq) (e := seq + 1) rfl
  rw [empty, dispatch_hello_empty, reply]
  rfl

end Sys2Proof.CommandSession
end

section
/-! Broadcasts that are not carried out (R143). -/

namespace Sys2Proof.Machine

/-- A broadcast that no unit carries out, or that its block refuses, is dropped and counted. -/
theorem exec_broadcast_dropped {i : Instr} {s : State} {seq code : Byte} {p : List Byte}
    (row : carried i = some (.broadcast, seq, code, p)) (reach : s.takesCommands = true)
    (dropped : broadcastable code p = true → (dispatch code p s).status ≠ .ok) : exec i s = .next (countRefusal s) := by
  rw [exec_host row]
  simp only [takeCommand, reach, if_true, handOver, takeBroadcast]
  split
  · next may => rw [if_neg (dropped may)]
  · rfl

/-- While armed no COMMIT is taken, whatever its mode (R25). -/
theorem commandCommit_armed {s : State} (armed : s.generations.commit.isArmed = true) (p : List Byte) :
    (commandCommit p s).status = .armed := by
  unfold commandCommit
  split
  · rw [commandCommitNext_armed armed]; rfl
  · rw [commandCommitAt_armed armed]; rfl
  · rw [commandCommitNow_armed armed]; rfl
  · simp only [commandCommitOther, armed, if_true]; rfl

/-- COMMIT AT with a horizon out of range is not taken, armed or not (R27). -/
theorem commandCommit_at_refused {s : State} {p : List Byte} (mode : byteAt p 0 = 1)
    (outside : ¬(1 ≤ horizonOf s (commitTarget p) ∧ horizonOf s (commitTarget p) ≤ 1024)) : (commandCommit p s).status ≠ .ok := by
  have goes : commandCommit p s = commandCommitAt (commitTarget p) s := by simp only [commandCommit, mode]
  cases armed : s.generations.commit.isArmed with
  | true =>
    rw [commandCommit_armed armed]
    decide
  | false =>
    rw [goes, commandCommitAt_range armed (by unfold horizonOf at outside; omega)]
    exact Status.noConfusion

end Sys2Proof.Machine

namespace Sys2Proof.CommandSession

open Sys2Proof.Machine

/-- Settles O23: the broadcast is none that may be carried out, or the generation controller refuses it; both are dropped. -/
theorem otherBroadcastsAreOnlyCounted : Obligations.OtherBroadcastsAreOnlyCounted := by
  unfold Obligations.OtherBroadcastsAreOnlyCounted
  intro s i seq code p row reach bounded reason
  have dropped : broadcastable code p = true → (dispatch code p s).status ≠ .ok := by
    intro may
    rcases reason with ⟨commit, clear⟩ | ⟨rfl, length, armed⟩ | ⟨rfl, length, mode, outside⟩
    · exact absurd ((broadcastable_iff code p).mp may) (by simp only [commit, clear, or_self, not_false_eq_true])
    · rw [dispatch_commit s ((lengthFits_commit p).mpr length), commandCommit_armed armed]
      decide
    · rw [dispatch_commit s ((lengthFits_commit p).mpr length)]
      exact commandCommit_at_refused mode outside
  rw [exec_broadcast_dropped row reach dropped, countRefusal_eq, Session.refused, satSucc_eq_min bounded]

end Sys2Proof.CommandSession
end

section
/-! STATUS and SET_EVENTS (R146, R147, R167). -/

namespace Sys2Proof.Machine

/-! ### The status record -/

/-- Width and height of a geometry as they stand in the status record, 0 when absent. -/
theorem geometryBytes_eq (g : Option Geometry) :
    geometryBytes g = be16 ((g.map Geometry.w).getD 0) ++ be16 ((g.map Geometry.h).getD 0) := by
  cases g <;> rfl

/-- The fault record as it stands in the status record: its kind, frame and line, 0 when absent. -/
theorem faultBytes_eq (r : Option FaultRecord) : faultBytes r = faultCode (r.map FaultRecord.kind) ::
    (be16 ((r.map fun r => r.frame.toNat).getD 0) ++ be16 ((r.map FaultRecord.line).getD 0)) := by
  cases r <;> rfl

/-- The record that an accepted STATUS finds: the slot reserved for its acknowledgement is no longer free. -/
theorem statusRecord_opened (s : State) (seq : Byte) : statusRecord (s.opened seq) =
    [s.tracker.rasterState.code, flagByte [s.tracker.locked.isSome, s.tracker.fault.isSome, s.generations.stagedDirty,
      s.compositor.lastFrame.firstLine.isSome, s.compositor.lastFrame.cutShort]] ++
    (be16 ((s.tracker.locked.map Geometry.w).getD 0) ++ be16 ((s.tracker.locked.map Geometry.h).getD 0)) ++
    be16 s.tracker.frameCounter.toNat ++
    (faultCode (s.tracker.fault.map FaultRecord.kind) ::
      (be16 ((s.tracker.fault.map fun r => r.frame.toNat).getD 0) ++ be16 ((s.tracker.fault.map FaultRecord.line).getD 0))) ++
    be16 s.generations.generation.toNat ++ [s.generations.commit.code] ++ be16 s.generations.commit.targetValue ++
    [s.generations.activeMode.code] ++ be16 s.images.freePages.length ++
    [u8 (s.images.countState 0), u8 (s.images.countState 1), u8 (s.images.countState 2), u8 (s.images.countState 3)] ++
    [u8 s.objects.stagedCount, u8 s.objects.activeCount] ++ be16 s.palettes.writes.length ++
    be16 s.compositor.lastFrame.linesTruncated ++ be16 (s.compositor.lastFrame.firstLine.getD 0) ++
    be16 s.compositor.lastFrame.recordsOmitted ++ be16 s.compositor.lastFrame.frame.toNat ++
    be16 s.filter.crcTally ++ be16 s.filter.truncTally ++ [u8 s.session.discardTally, u8 s.session.refusalTally] ++
    [s.reports.events.byte, s.session.mask.byte, u8 (7 - s.reports.queue.length)] := by
  have slots : (s.opened seq).reports.freeSlots = 7 - s.reports.queue.length :=
    (opened_freeSlots s seq).trans (Nat.add_sub_add_right 7 1 s.reports.queue.length)
  rw [← geometryBytes_eq, ← faultBytes_eq, ← slots]
  rfl

/-- STATUS changes nothing itself (R146). -/
theorem dispatch_status_empty (s : State) : dispatch codeStatus [] s = ⟨s, .ok, statusRecord s⟩ := dispatch_status s rfl

/-! ### A new mask (R147) -/

/-- The mask put in place, and pending events of the kinds outside it dropped. -/
def State.remasked (m : EventMask) (s : State) : State :=
  { s with
    session := { s.session with mask := m }
    reports := { s.reports with events := s.reports.events.restrict m } }

/-- The arbiter reads neither the mask nor the pending events. -/
theorem begin_restricted (r : ReportUnit) (e : PendingEvents) :
    ReportUnit.begin { r with events := e } = { r.begin with events := e } := by
  have choice : ReportUnit.choice { r with events := e } = r.choice := rfl
  simp only [ReportUnit.begin, choice]
  cases transmitter : r.transmitter with
  | sending q => simp only [transmitter]
  | abandoned q => simp only
  | free => cases r.choice <;> simp only [transmitter]

section
variable (m : EventMask) (s : State)

theorem remasked_events : (s.remasked m).reports.events = s.reports.events.restrict m := rfl

theorem startTransmission_remasked : startTransmission (s.remasked m) = (startTransmission s).remasked m := by
  by_cases begins : (s.retOutUp && s.upstreamRoom) = true
  · have begins' : ((s.remasked m).retOutUp && (s.remasked m).upstreamRoom) = true := begins
    simp only [startTransmission, begins, begins', if_true]
    simp only [State.remasked, begin_restricted, begin_events]
  · have waits : (s.retOutUp && s.upstreamRoom) = false := Bool.eq_false_iff.mpr begins
    rw [startTransmission_waits waits, startTransmission_waits (s := s.remasked m) waits]

theorem reportFilled_remasked (before : ReportUnit) :
    reportFilled before (s.remasked m) = (reportFilled before s).remasked m := by
  have head : (s.remasked m).reports.reportHead = s.reports.reportHead := rfl
  cases first : before.reportHead with
  | some b =>
    have some : before.reportHead.isSome = true := by simp [first]
    rw [reportFilled_behind some, reportFilled_behind some]
  | none =>
    cases filled : s.reports.reportHead with
    | none => rw [reportFilled_nothing filled, reportFilled_nothing (head.trans filled)]
    | some b =>
      have some : s.reports.reportHead.isSome = true := by simp [filled]
      rw [reportFilled_decides first some, reportFilled_decides (s := s.remasked m) first some, startTransmission_remasked]

/-- An acknowledgement is built alike under either mask. -/
theorem fillSlot_remasked (a : Ack) (isRepeat : Bool) : fillSlot a isRepeat (s.remasked m) = (fillSlot a isRepeat s).remasked m :=
  let report := ackReport s.unitAddress a isRepeat s.session.discardTally s.session.firstDiscarded
  reportFilled_remasked m { s with
    reports := { s.reports with queue := fillReserved report s.reports.queue }
    session := s.session.reported } s.reports

end

/-- An acknowledgement put in the cache (R140). -/
def State.cachedBy (a : Ack) (s : State) : State := { s with session := { s.session with cached := some a } }

/-- An accepted command whose block puts a mask in place: its acceptance, and the new mask (R142, R147). -/
theorem exec_remasked {s : State} {i : Instr} {seq code : Byte} {p d : List Byte} {st : Status} {m : EventMask}
    (row : carried i = some (.unicast, seq, code, p)) (expects : s.Expects seq)
    (answer : dispatch code p (s.opened seq) = ⟨(s.opened seq).remasked m, st, d⟩) :
    exec i s = .next ((s.accepted ⟨seq, code, st, d⟩).remasked m) := by
  rw [exec_host row, expects_take expects]
  obtain ⟨-, -, unreserved, -⟩ := expects
  have filled : fillSlot ⟨seq, code, st, d⟩ false ((s.opened seq).cachedBy ⟨seq, code, st, d⟩) = s.accepted ⟨seq, code, st, d⟩ :=
    fillSlot_eq (tail := []) unreserved rfl
  unfold State.opened at answer filled
  simp only [acceptCommand, answer, ← filled, ← fillSlot_remasked]
  rfl

theorem accepted_events (s : State) (a : Ack) : (s.accepted a).reports.events = s.reports.events := by simp [State.accepted]

theorem accepted_remasked (s : State) (a : Ack) (m : EventMask) : (s.accepted a).remasked m =
    { s.accepted a with
      session := { (s.accepted a).session with mask := m }
      reports := { (s.accepted a).reports with events := s.reports.events.restrict m } } := by
  rw [State.remasked, accepted_events]

/-- The mask whose bits the low half of a byte gives. -/
def EventMask.ofBits (b : Byte) : EventMask := ⟨b.getLsbD 0, b.getLsbD 1, b.getLsbD 2, b.getLsbD 3⟩

theorem ofByte_named {b : Byte} (named : b.toNat < 16) : EventMask.ofByte b.toNat = some (.ofBits b) := if_pos named

theorem ofByte_unnamed {n : Nat} (unnamed : 16 ≤ n) : EventMask.ofByte n = none := if_neg (Nat.not_lt.mpr unnamed)

/-- A byte that names kinds alone is read back from its mask. -/
theorem ofBits_byte {b : Byte} (named : b.toNat < 16) : (EventMask.ofBits b).byte = b := by
  have all : ∀ k : Fin 16, (EventMask.ofBits (BitVec.ofNat 8 k)).byte = BitVec.ofNat 8 k := by decide
  simpa using all ⟨b.toNat, named⟩

section
variable {b : Byte} (s : State)

theorem dispatch_setEvents_named (named : b.toNat < 16) : dispatch codeSetEvents [b] s =
    ⟨s.remasked (.ofBits b), .ok, [b, (s.reports.events.restrict (.ofBits b)).byte]⟩ := by
  have mask : EventMask.ofByte (byteAt [b] 0) = some (.ofBits b) := ofByte_named named
  rw [dispatch_setEvents s rfl]
  simp only [commandSetEvents, mask, ofBits_byte named]
  rfl

theorem dispatch_setEvents_unnamed (unnamed : 16 ≤ b.toNat) : dispatch codeSetEvents [b] s = ⟨s, .range, []⟩ := by
  have mask : EventMask.ofByte (byteAt [b] 0) = none := ofByte_unnamed unnamed
  rw [dispatch_setEvents s rfl]
  simp only [commandSetEvents, mask, refuse]

end

end Sys2Proof.Machine

namespace Sys2Proof.CommandSession

open Sys2Proof.Machine

/-- Settles O25: the record is written out once, as the command finds the unit, and every item is read off at its place. -/
theorem statusReturnsTheRecord : Obligations.StatusReturnsTheRecord := by
  unfold Obligations.StatusReturnsTheRecord
  intro s seq expects
  refine ⟨statusRecord (s.opened seq), exec_answered rfl expects (dispatch_status_empty _), ?_⟩
  rw [statusRecord_opened]
  simp only [be16, List.cons_append, List.nil_append]
  exact ⟨rfl, rfl, rfl, rfl, rfl, rfl, rfl, rfl, rfl, rfl, rfl, rfl, rfl, rfl, rfl, rfl⟩

/-- Settles O26: a mask that names kinds alone takes the old one's place beside the acceptance, any other is refused. -/
theorem setEventsReplacesTheMask : Obligations.SetEventsReplacesTheMask := by
  unfold Obligations.SetEventsReplacesTheMask
  intro s seq m expects
  refine ⟨fun named => ?_, fun unnamed => exec_answered rfl expects (dispatch_setEvents_unnamed _ unnamed)⟩
  have run : exec (.setEvents .unicast seq [m]) s = .next ((s.accepted
      ⟨seq, codeSetEvents, .ok, [m, (s.reports.events.restrict (.ofBits m)).byte]⟩).remasked (.ofBits m)) :=
    exec_remasked rfl expects (dispatch_setEvents_named _ named)
  refine ⟨_, run, ⟨rfl, rfl, rfl, rfl⟩, ?_⟩
  simp only [remasked_events, accepted_events]
  exact ⟨rfl, rfl, rfl, rfl, accepted_remasked s _ _⟩

end Sys2Proof.CommandSession
end

section
/-! The relay queue behind each symbol of RET_IN and behind its lane (R155, R156, R160): a packet in reception stands at the tail alone,
and the head that may be sent changes where a packet is received whole at the head of the queue. -/

namespace Sys2Proof.Machine

/-! ### The queue with and without a packet in reception -/

section
variable {l front : List RelayPlace} {bytes : List Byte} {r : ReportUnit}

theorem receivingRelay_open (front : List RelayPlace) (bytes : List Byte) :
    receivingRelay (front ++ [⟨bytes, false⟩]) = true := by
  simp [receivingRelay]

/-- No packet is in reception exactly where the place at the tail, if any, holds a whole one. -/
theorem receivingRelay_eq_false_iff : receivingRelay l = false ↔ ∀ p, l.getLast? = some p → p.whole = true := by
  unfold receivingRelay
  cases l.getLast? <;> simp

/-- A packet in reception stands at the tail. -/
theorem relay_open_or_not (l : List RelayPlace) :
    receivingRelay l = false ∨ ∃ front bytes, l = front ++ [⟨bytes, false⟩] := by
  rcases l.eq_nil_or_concat' with rfl | ⟨front, ⟨bytes, _ | _⟩, rfl⟩
  · exact .inl rfl
  · exact .inr ⟨front, bytes, rfl⟩
  · exact .inl (by simp [receivingRelay])

/-! ### PACKET_START, PACKET_BYTE, PACKET_END and a link down -/

theorem relayStart_open : relayStart (front ++ [⟨bytes, false⟩]) = front ++ [⟨[], false⟩] := by
  simp [relayStart, receivingRelay_open]

theorem relayStart_room (none : receivingRelay l = false) (room : l.length < 4) : relayStart l = l ++ [⟨[], false⟩] := by
  simp [relayStart, none, Config.relayPlaces, room]

theorem relayStart_full (none : receivingRelay l = false) (full : 4 ≤ l.length) : relayStart l = l := by
  simp [relayStart, none, Config.relayPlaces, Nat.not_lt.mpr full]

theorem relayByte_open (b : Byte) (room : bytes.length < 64) :
    relayByte b (front ++ [⟨bytes, false⟩]) = front ++ [⟨bytes ++ [b], false⟩] := by
  simp [relayByte, Config.relayBytes, room]

theorem relayByte_full (b : Byte) (full : 64 ≤ bytes.length) : relayByte b (front ++ [⟨bytes, false⟩]) = front := by
  simp [relayByte, Config.relayBytes, full]

theorem relayByte_none (none : receivingRelay l = false) (b : Byte) : relayByte b l = l := by
  rw [receivingRelay_eq_false_iff] at none
  unfold relayByte
  cases last : l.getLast? with
  | none => rfl
  | some p => simp [none p last]

theorem relayEnd_short (short : bytes.length < 8) : relayEnd (front ++ [⟨bytes, false⟩]) = front := by
  simp [relayEnd, short]

theorem relayEnd_whole (long : 8 ≤ bytes.length) : relayEnd (front ++ [⟨bytes, false⟩]) = front ++ [⟨bytes, true⟩] := by
  simp [relayEnd, long]

theorem relayEnd_none (none : receivingRelay l = false) : relayEnd l = l := by
  rw [receivingRelay_eq_false_iff] at none
  unfold relayEnd
  cases last : l.getLast? with
  | none => rfl
  | some p => simp [none p last]

theorem relayDrop_open : relayDrop (front ++ [⟨bytes, false⟩]) = front := by
  simp [relayDrop, receivingRelay_open]

theorem relayDrop_none (none : receivingRelay l = false) : relayDrop l = l := by
  simp [relayDrop, none]

/-! ### What they can make of the queue -/

/-- The changes that receive no packet whole. -/
inductive RelayChange : List RelayPlace → List RelayPlace → Prop
  /-- A symbol passed over. -/
  | stands (l : List RelayPlace) : RelayChange l l
  /-- A packet begun in a place that was free. -/
  | begun (l : List RelayPlace) (none : receivingRelay l = false) (room : l.length < 4) : RelayChange l (l ++ [⟨[], false⟩])
  /-- A packet in reception that gets a byte more, or gives its place to the next. -/
  | received (front : List RelayPlace) (bytes more : List Byte) (room : more.length ≤ 64) :
      RelayChange (front ++ [⟨bytes, false⟩]) (front ++ [⟨more, false⟩])
  /-- A packet in reception discarded. -/
  | discarded (front : List RelayPlace) (bytes : List Byte) : RelayChange (front ++ [⟨bytes, false⟩]) front

theorem relayStart_change (l : List RelayPlace) : RelayChange l (relayStart l) := by
  rcases relay_open_or_not l with none | ⟨front, bytes, rfl⟩
  · rcases Nat.lt_or_ge l.length 4 with room | full
    · exact relayStart_room none room ▸ .begun l none room
    · exact (relayStart_full none full).symm ▸ .stands l
  · exact relayStart_open ▸ .received front bytes [] (Nat.zero_le 64)

theorem relayByte_change (b : Byte) (l : List RelayPlace) : RelayChange l (relayByte b l) := by
  rcases relay_open_or_not l with none | ⟨front, bytes, rfl⟩
  · exact (relayByte_none none b).symm ▸ .stands l
  · rcases Nat.lt_or_ge bytes.length 64 with room | full
    · exact relayByte_open b room ▸ .received front bytes _ (by simp; omega)
    · exact (relayByte_full b full).symm ▸ .discarded front bytes

theorem relayDrop_change (l : List RelayPlace) : RelayChange l (relayDrop l) := by
  rcases relay_open_or_not l with none | ⟨front, bytes, rfl⟩
  · exact (relayDrop_none none).symm ▸ .stands l
  · exact relayDrop_open.symm ▸ .discarded front bytes

/-- A PACKET_END receives the packet whole, or is one of the other changes. -/
theorem relayEnd_change (l : List RelayPlace) : RelayChange l (relayEnd l) ∨
    ∃ front bytes, l = front ++ [⟨bytes, false⟩] ∧ 8 ≤ bytes.length ∧ relayEnd l = front ++ [⟨bytes, true⟩] := by
  rcases relay_open_or_not l with none | ⟨front, bytes, rfl⟩
  · exact .inl ((relayEnd_none none).symm ▸ .stands l)
  · rcases Nat.lt_or_ge bytes.length 8 with short | long
    · exact .inl ((relayEnd_short short).symm ▸ .discarded front bytes)
    · exact .inr ⟨front, bytes, rfl, long, relayEnd_whole long⟩

/-! ### The head that may be sent (R157) -/

/-- A packet in reception is none that may be sent. -/
theorem relayHead_open (r : ReportUnit) (front : List RelayPlace) (bytes : List Byte) :
    ({ r with relay := front ++ [⟨bytes, false⟩] } : ReportUnit).relayHead = ({ r with relay := front } : ReportUnit).relayHead := by
  cases front <;> rfl

/-- A packet behind another is none that may be sent yet. -/
theorem relayHead_behind (r : ReportUnit) (some : front ≠ []) (p : RelayPlace) :
    ({ r with relay := front ++ [p] } : ReportUnit).relayHead = ({ r with relay := front } : ReportUnit).relayHead := by
  cases front with
  | nil => exact absurd rfl some
  | cons q l => rfl

theorem RelayChange.relayHead {l l' : List RelayPlace} (change : RelayChange l l') (r : ReportUnit) :
    ({ r with relay := l' } : ReportUnit).relayHead = ({ r with relay := l } : ReportUnit).relayHead := by
  cases change with
  | stands => rfl
  | begun _ none room => exact relayHead_open r l []
  | received front bytes more room => rw [relayHead_open, relayHead_open]
  | discarded front bytes => exact (relayHead_open r _ bytes).symm

/-! ### The laws of the queue (R155) -/

/-- At most 4 places, of which the last alone may be in reception, each within its lengths. -/
structure RelayLegal (l : List RelayPlace) : Prop where
  relay : l.length ≤ 4
  oneReceived : ∀ p ∈ l.dropLast, p.whole = true
  places : ∀ p ∈ l, p.bytes.length ≤ 64 ∧ (p.whole = true → 8 ≤ p.bytes.length)

theorem ReportUnit.Legal.relayLegal (legal : r.Legal) : RelayLegal r.relay := ⟨legal.relay, legal.oneReceived, legal.places⟩

/-- The laws read off a queue by its tail. -/
theorem relayLegal_concat (p : RelayPlace) : RelayLegal (front ++ [p]) ↔
    front.length < 4 ∧ (∀ q ∈ front, q.whole = true ∧ q.bytes.length ≤ 64 ∧ 8 ≤ q.bytes.length) ∧
      p.bytes.length ≤ 64 ∧ (p.whole = true → 8 ≤ p.bytes.length) := by
  constructor
  · rintro ⟨relay, oneReceived, places⟩
    rw [List.dropLast_concat] at oneReceived
    refine ⟨by simpa using relay, fun q at_front => ?_, places p (by simp)⟩
    obtain ⟨short, long⟩ := places q (by simp [at_front])
    exact ⟨oneReceived q at_front, short, long (oneReceived q at_front)⟩
  · rintro ⟨room, whole, last⟩
    refine ⟨by simpa using room, fun q at_front => ?_, fun q among => ?_⟩
    · rw [List.dropLast_concat] at at_front
      exact (whole q at_front).1
    · rcases List.mem_append.mp among with at_front | at_tail
      · obtain ⟨-, short, long⟩ := whole q at_front
        exact ⟨short, fun _ => long⟩
      · exact List.mem_singleton.mp at_tail ▸ last

/-- With no packet in reception every place holds a whole one. -/
theorem RelayLegal.all_whole (legal : RelayLegal l) (none : receivingRelay l = false) :
    ∀ q ∈ l, q.whole = true ∧ q.bytes.length ≤ 64 ∧ 8 ≤ q.bytes.length := by
  rcases l.eq_nil_or_concat' with rfl | ⟨front, p, rfl⟩
  · nofun
  · obtain ⟨-, whole, short, long⟩ := (relayLegal_concat p).mp legal
    have last : p.whole = true := receivingRelay_eq_false_iff.mp none p (by simp)
    intro q among
    rcases List.mem_append.mp among with at_front | at_tail
    · exact whole q at_front
    · exact List.mem_singleton.mp at_tail ▸ ⟨last, short, long last⟩

theorem RelayChange.legal {l l' : List RelayPlace} (change : RelayChange l l') (legal : RelayLegal l) : RelayLegal l' := by
  cases change with
  | stands => exact legal
  | begun _ none room => exact (relayLegal_concat _).mpr ⟨room, legal.all_whole none, Nat.zero_le 64, nofun⟩
  | received front bytes more room =>
    obtain ⟨places, whole, -⟩ := (relayLegal_concat _).mp legal
    exact (relayLegal_concat _).mpr ⟨places, whole, room, nofun⟩
  | discarded front bytes =>
    obtain ⟨places, whole, -⟩ := (relayLegal_concat _).mp legal
    exact ⟨places.le, fun q among => (whole q (List.mem_of_mem_dropLast among)).1,
      fun q among => ⟨(whole q among).2.1, fun _ => (whole q among).2.2⟩⟩

/-- A packet received whole has at least 8 bytes, and at most the 64 that its place took. -/
theorem relayLegal_whole (legal : RelayLegal (front ++ [⟨bytes, false⟩])) (long : 8 ≤ bytes.length) :
    RelayLegal (front ++ [⟨bytes, true⟩]) := by
  obtain ⟨room, whole, short, -⟩ := (relayLegal_concat _).mp legal
  exact (relayLegal_concat _).mpr ⟨room, whole, short, fun _ => long⟩

theorem relayLegal_tail (legal : RelayLegal l) : RelayLegal l.tail where
  relay := by have := legal.relay; simp; omega
  oneReceived p among := legal.oneReceived p (by rw [← List.tail_dropLast] at among; exact List.mem_of_mem_tail among)
  places p among := legal.places p (List.mem_of_mem_tail among)

/-- The relay queue changed within its laws, the packet at its head standing: the laws of the report unit stand. -/
theorem legal_relayed (legal : r.Legal) (relay : RelayLegal l)
    (head : r.relayHead.isSome = true → ({ r with relay := l } : ReportUnit).relayHead.isSome = true) :
    ({ r with relay := l } : ReportUnit).Legal :=
  { legal with
    relay := relay.relay
    oneReceived := relay.oneReceived
    places := relay.places
    sending := fun q sends => by
      obtain ⟨stands, up⟩ := legal.sending q sends
      cases q with
      | report => exact ⟨stands, up⟩
      | relay => exact ⟨head stands, up⟩
    abandoned := fun q left => by
      have stands := legal.abandoned q left
      cases q with
      | report => exact stands
      | relay => exact head stands }

end

end Sys2Proof.Machine
end

section
/-! The laws of the report unit, and that the arbiter has nothing to decide, behind each part of a command (R149 to R160). -/

namespace Sys2Proof.Machine

/-! ### Parts of a command that keep both -/

/-- Between these two states the laws of the report unit are kept, and where the arbiter had nothing to decide it has nothing. -/
structure ReportsKept (s t : State) : Prop where
  legal : s.reports.Legal → t.reports.Legal
  settled : s.ArbiterSettled → t.ArbiterSettled

section
variable {s t u : State} {r : ReportUnit} {l : List Event}

theorem ReportsKept.trans (a : ReportsKept s t) (b : ReportsKept t u) : ReportsKept s u :=
  ⟨fun legal => b.legal (a.legal legal), fun settled => b.settled (a.settled settled)⟩

/-- The arbiter looks at the lane, ROOM, the transmitter and the two heads. -/
theorem settled_congr (settled : s.ArbiterSettled) (up : t.retOutUp = s.retOutUp) (room : t.upstreamRoom = s.upstreamRoom)
    (transmitter : t.reports.transmitter = s.reports.transmitter) (relay : t.reports.relayHead = s.reports.relayHead)
    (report : s.reports.reportHead = none → t.reports.reportHead = none) : t.ArbiterSettled := by
  intro lane asserted
  obtain ⟨nothing, kept⟩ := settled (up ▸ lane) (room ▸ asserted)
  rw [transmitter, relay]
  exact ⟨fun free => ⟨report (nothing free).1, (nothing free).2⟩, kept⟩

/-- On a lane that is DOWN nothing is decided. -/
theorem settled_of_down (down : t.retOutUp = false) : t.ArbiterSettled := fun up => by rw [down] at up; cases up

/-- A part that leaves the report unit, RESET_N and ROOM alone. -/
theorem ReportsKept.untouched (reports : t.reports = s.reports) (reset : t.resetAsserted = s.resetAsserted)
    (room : t.upstreamRoom = s.upstreamRoom) : ReportsKept s t :=
  ⟨fun legal => reports ▸ legal, fun settled => settled_congr settled (by simp [State.retOutUp, reports, reset]) room
    (by rw [reports]) (by rw [reports]) (by rw [reports]; exact id)⟩

theorem ReportsKept.preceded (kept : ReportsKept t u) (reports : t.reports = s.reports)
    (reset : t.resetAsserted = s.resetAsserted) (room : t.upstreamRoom = s.upstreamRoom) : ReportsKept s u :=
  (ReportsKept.untouched reports reset room).trans kept

theorem ReportsKept.followed (kept : ReportsKept s t) (reports : u.reports = t.reports)
    (reset : u.resetAsserted = t.resetAsserted) (room : u.upstreamRoom = t.upstreamRoom) : ReportsKept s u :=
  kept.trans (.untouched reports reset room)

theorem ReportsKept.refl (s : State) : ReportsKept s s := .untouched rfl rfl rfl

theorem startTransmission_kept (s : State) : ReportsKept s (startTransmission s) :=
  ⟨startTransmission_legal, fun _ => startTransmission_settled s⟩

theorem raise_kept (e : Event) (s : State) : ReportsKept s (raise e s) :=
  ⟨fun legal => raise_state_legal legal e, fun settled => raise_settled settled e⟩

/-- Events raised one after another. -/
theorem foldl_raise_kept (l : List Event) (s : State) : ReportsKept s (l.foldl (fun v e => raise e v) s) := by
  induction l generalizing s with
  | nil => exact .refl s
  | cons e l ih => exact (raise_kept e s).trans (ih (raise e s))

theorem State.Raises.kept (raises : s.Raises l t) : ReportsKept s t := by
  have fold := alike_foldl l s
  exact (foldl_raise_kept l s).trans (.untouched raises.reports (raises.alike.reset.trans fold.reset.symm)
    (raises.alike.room.trans fold.room.symm))

/-! ### The forward channel -/

theorem countTruncated_kept (s : State) : ReportsKept s (countTruncated s) :=
  (raise_kept _ _).preceded rfl rfl rfl

theorem countCrc_kept (s : State) : ReportsKept s (countCrc s) :=
  (raise_kept _ _).preceded rfl rfl rfl

theorem endOpenPacket_kept (s : State) : ReportsKept s (endOpenPacket s) := by
  unfold endOpenPacket
  cases s.filter.reception with
  | none => exact .refl s
  | unexamined => exact .untouched rfl rfl rfl
  | holding => exact (countTruncated_kept (closePacket (releaseAll s))).preceded rfl rfl rfl
  | overlong => exact (countTruncated_kept (closePacket s)).preceded rfl rfl rfl

theorem filterRaster_kept (x : FwdSymbol) (s : State) : ReportsKept s (filterRaster x s) :=
  (endOpenPacket_kept s).followed rfl rfl rfl

theorem filterPacketStart_kept (s : State) : ReportsKept s (filterPacketStart s) := by
  unfold filterPacketStart
  dsimp only
  split <;> exact (endOpenPacket_kept s).followed rfl rfl rfl

theorem trackSymbol_kept (x : FwdSymbol) (s : State) : ReportsKept s (trackSymbol x s) := by
  obtain ⟨l, raises, -⟩ := trackSymbol_raises x s
  exact raises.kept

theorem takeFrameStart_kept (s : State) : ReportsKept s (takeFrameStart s) := by
  obtain ⟨l, raises, -⟩ := trackFrameStart_raises s
  exact ((raises.kept.trans (applyIfDue_raises s).kept).trans (filterRaster_kept .frameStart _)).followed rfl rfl rfl

theorem takeFrameEnd_kept (s : State) : ReportsKept s (takeFrameEnd s) :=
  ((trackSymbol_kept _ s).trans (filterRaster_kept _ _)).trans (endCompositedFrame_raises _).kept

theorem loseForwardLink_kept (s : State) : ReportsKept s (loseForwardLink s) :=
  (((trackLinkDown_raises s).kept.trans (stopCompositing_raises _).kept).trans (endOpenPacket_kept _)).followed
    (by simp [loseForwardLink]) (by simp [loseForwardLink]) (by simp [loseForwardLink])

/-- A symbol taken keeps what its operation keeps: its slot of FWD_OUT has no part in the report unit. -/
theorem onSymbol_kept {f : State → State} (kept : ReportsKept s (f s)) : ReportsKept s (onSymbol f s) := by
  unfold onSymbol
  split
  · exact kept.followed (by simp) (by simp) (by simp)
  · exact .refl s

/-! ### The return lane -/

/-- The laws look at the queues, the transmitter, the output lane and whether an event waits. -/
theorem legal_congr {v : ReportUnit} (legal : r.Legal) (queue : v.queue = r.queue) (relay : v.relay = r.relay)
    (transmitter : v.transmitter = r.transmitter) (up : r.outputLaneUp = true → v.outputLaneUp = true)
    (waiting : v.events ≠ PendingEvents.empty → r.events ≠ PendingEvents.empty) : v.Legal := by
  have head : ∀ q, v.headOf q = r.headOf q := fun q => by
    cases q <;> simp only [ReportUnit.headOf, ReportUnit.reportHead, ReportUnit.relayHead, queue, relay]
  refine ⟨queue ▸ legal.queue, queue ▸ legal.filled, fun waits => ?_, relay ▸ legal.relay, relay ▸ legal.oneReceived,
    relay ▸ legal.places, fun q sends => ?_, fun q left => ?_⟩
  · have few := legal.waiting (waiting waits)
    rwa [ReportUnit.freeSlots, queue]
  · obtain ⟨stands, lane⟩ := legal.sending q (transmitter ▸ sends)
    exact ⟨head q ▸ stands, up lane⟩
  · exact head q ▸ legal.abandoned q (transmitter ▸ left)

/-- A relay queue in place of another. -/
def State.relayed (s : State) (l : List RelayPlace) : State := { s with reports := { s.reports with relay := l } }

/-- The input lane takes symbols (R149, R160). -/
abbrev State.relays (s : State) : Prop := s.resetAsserted = false ∧ s.reports.inputLaneUp = true

theorem onRelay_up (relays : s.relays) (f : List RelayPlace → List RelayPlace) :
    onRelay f s = s.relayed (f s.reports.relay) := by
  simp [onRelay, relays.1, relays.2, State.relayed]

theorem onRelay_still (down : ¬s.relays) (f : List RelayPlace → List RelayPlace) : onRelay f s = s :=
  if_neg (by simpa using down)

theorem endRelayPacket_still (down : ¬s.relays) : endRelayPacket s = s := by
  simp [endRelayPacket, onRelay_still down]

/-- A PACKET_END that leaves the head of the queue is not offered to the arbiter (R157). -/
theorem endRelayPacket_behind (relays : s.relays)
    (head : (s.relayed (relayEnd s.reports.relay)).reports.relayHead = s.reports.relayHead) :
    endRelayPacket s = s.relayed (relayEnd s.reports.relay) := by
  unfold endRelayPacket
  dsimp only
  rw [onRelay_up relays, head]
  cases s.reports.relayHead <;> rfl

/-- A packet received whole at the head of the queue is (R157). -/
theorem endRelayPacket_head {bytes : List Byte} (relays : s.relays) (alone : s.reports.relay = [⟨bytes, false⟩])
    (long : 8 ≤ bytes.length) : endRelayPacket s = startTransmission (s.relayed [⟨bytes, true⟩]) := by
  have received : relayEnd s.reports.relay = [⟨bytes, true⟩] := alone ▸ relayEnd_whole (front := []) long
  have before : s.reports.relayHead = none := by simp [ReportUnit.relayHead, alone]
  unfold endRelayPacket
  dsimp only
  rw [onRelay_up relays, received, before]
  rfl

theorem relayed_settled {k : List RelayPlace} (settled : s.ArbiterSettled)
    (head : (s.relayed k).reports.relayHead = s.reports.relayHead) : (s.relayed k).ArbiterSettled :=
  settled_congr settled rfl rfl rfl head id

theorem RelayChange.kept {k : List RelayPlace} (change : RelayChange s.reports.relay k) : ReportsKept s (s.relayed k) where
  legal legal := legal_relayed legal (change.legal legal.relayLegal) (by rw [change.relayHead]; exact id)
  settled settled := relayed_settled settled (change.relayHead s.reports)

theorem onRelay_kept {f : List RelayPlace → List RelayPlace} (change : ∀ k, RelayChange k (f k)) (s : State) :
    ReportsKept s (onRelay f s) := by
  by_cases relays : s.relays
  · exact onRelay_up relays f ▸ (change _).kept
  · exact (onRelay_still relays f).symm ▸ .refl s

theorem endRelayPacket_kept (s : State) : ReportsKept s (endRelayPacket s) := by
  by_cases relays : s.relays
  · rcases relayEnd_change s.reports.relay with change | ⟨front, bytes, stood, long, received⟩
    · exact endRelayPacket_behind relays (change.relayHead s.reports) ▸ change.kept
    · have whole : s.reports.Legal → RelayLegal (front ++ [⟨bytes, true⟩]) := fun legal =>
        relayLegal_whole (stood ▸ legal.relayLegal) long
      by_cases alone : front = []
      · subst alone
        rw [endRelayPacket_head relays stood long]
        refine ⟨fun legal => startTransmission_legal (legal_relayed legal (whole legal) fun _ => rfl), fun _ => ?_⟩
        exact startTransmission_settled _
      · have head : (s.relayed (relayEnd s.reports.relay)).reports.relayHead = s.reports.relayHead := by
          have before := relayHead_behind s.reports alone ⟨bytes, false⟩
          rw [← stood] at before
          rw [received]
          exact (relayHead_behind s.reports alone ⟨bytes, true⟩).trans before.symm
        rw [endRelayPacket_behind relays head]
        exact ⟨fun legal => legal_relayed legal (received ▸ whole legal) fun some => by rw [← head] at some; exact some,
          fun settled => relayed_settled settled head⟩
  · exact (endRelayPacket_still relays).symm ▸ .refl s

/-- A transmission under way becomes abandoned, and its packet stays at the head of its queue (R159). -/
theorem loseOutput_legal (legal : r.Legal) : r.loseOutput.Legal where
  queue := legal.queue
  filled := legal.filled
  waiting := legal.waiting
  relay := legal.relay
  oneReceived := legal.oneReceived
  places := legal.places
  sending q sends := by
    simp only [ReportUnit.loseOutput] at sends
    split at sends <;> cases sends
  abandoned q left := by
    have stands : (r.headOf q).isSome = true := by
      simp only [ReportUnit.loseOutput] at left
      split at left
      · cases left
      · next sends => cases left; exact (legal.sending q sends).1
      · next left' => cases left; exact legal.abandoned q left'
    cases q <;> exact stands

/-- The output lane coming UP breaks no law, and no change of the input lane does. -/
theorem outputLaneUp_legal (legal : r.Legal) : ({ r with outputLaneUp := true } : ReportUnit).Legal :=
  legal_congr legal rfl rfl rfl (fun _ => rfl) id

theorem inputLaneUp_legal (legal : r.Legal) (up : Bool) : ({ r with inputLaneUp := up } : ReportUnit).Legal :=
  legal_congr legal rfl rfl rfl id id

/-- A packet sent leaves its queue, and a report's slot freed may let an event be built (R153, R158). -/
theorem finish_legal (legal : r.Legal) (a : BitVec 4) (q : QueueName) : (r.finish a q).Legal := by
  cases q with
  | report =>
    exact build_legal (r := { r with queue := r.queue.tail, transmitter := .free })
      (by have := legal.queue; simp; omega) (fun x among => legal.filled x (List.mem_of_mem_tail among)) legal.relay
      legal.oneReceived legal.places nofun nofun a
  | relay =>
    obtain ⟨relay, oneReceived, places⟩ := relayLegal_tail legal.relayLegal
    exact { legal with relay, oneReceived, places, sending := nofun, abandoned := nofun }

theorem endTransmission_kept (s : State) : ReportsKept s (endTransmission s) := by
  unfold endTransmission
  split
  · split
    · exact .refl s
    · exact ⟨fun legal => startTransmission_legal (finish_legal legal _ _), fun _ => startTransmission_settled _⟩
  · exact .refl s

end

end Sys2Proof.Machine
end

section
/-! The report unit behind a host command (R136, R142, R147, R150): the slot of an acknowledgement reserved, the block's answer behind
it, and the slot filled. -/

namespace Sys2Proof.Machine

section
variable {s t : State} {r : ReportUnit}

/-! ### A block's answer -/

/-- What a block's answer makes of the report unit. -/
inductive ReportsAnswered (s t : State) : Prop
  /-- Nothing. -/
  | stands (eq : t.reports = s.reports)
  /-- A new mask, with the pending events of other kinds dropped (R147). -/
  | masked (m : EventMask) (eq : t.reports = { s.reports with events := s.reports.events.restrict m })
  /-- The event of an apply (R33). -/
  | raised (e : Event) (eq : t.reports = (raise e s).reports)

theorem dispatch_reports (code : Byte) (p : List Byte) (s : State) : ReportsAnswered s (dispatch code p s).state := by
  have answered := dispatch_answered code p s
  generalize (dispatch code p s).state = t at answered ⊢
  cases answered with
  | events m row => exact .masked m rfl
  | now row idle unlocked => exact .raised _ rfl
  | clearNow row unlocked => exact .raised _ rfl
  | _ => exact .stands rfl

theorem restrict_empty (m : EventMask) : PendingEvents.empty.restrict m = PendingEvents.empty := by
  simp [PendingEvents.restrict, PendingEvents.empty]

/-- What is pending after kinds are dropped was pending before. -/
theorem restrict_legal (legal : r.Legal) (m : EventMask) :
    ({ r with events := r.events.restrict m } : ReportUnit).Legal :=
  legal_congr legal rfl rfl rfl id fun waits none => waits (by simp only [none, restrict_empty])

theorem ReportsAnswered.kept (answered : ReportsAnswered s t) (reset : t.resetAsserted = s.resetAsserted)
    (room : t.upstreamRoom = s.upstreamRoom) : ReportsKept s t := by
  cases answered with
  | stands eq => exact .untouched eq reset room
  | raised e eq => exact (raise_kept e s).followed eq reset room
  | masked m eq =>
    refine ⟨fun legal => eq ▸ restrict_legal legal m, fun settled => settled_congr settled ?_ room ?_ ?_ ?_⟩
    · simp only [State.retOutUp, eq, reset]
    all_goals rw [eq]
    · rfl
    · exact id

theorem dispatch_kept (code : Byte) (p : List Byte) (s : State) : ReportsKept s (dispatch code p s).state :=
  (dispatch_reports code p s).kept (dispatch_front code p s).resetAsserted (dispatch_front code p s).upstreamRoom

/-- A unit that differs from another in its report queue and its pending events at most. -/
theorem unit_eq_of_frame {u : ReportUnit} (relay : u.relay = r.relay) (transmitter : u.transmitter = r.transmitter)
    (mark : u.lastServed = r.lastServed) (input : u.inputLaneUp = r.inputLaneUp) (output : u.outputLaneUp = r.outputLaneUp) :
    u = { r with queue := u.queue, events := u.events } := by
  simp only [← relay, ← transmitter, ← mark, ← input, ← output]

/-- Behind a report or a reserved slot an answer appends to the queue, and leaves the transmitter, the mark, the relay queue and the
lanes alone. -/
theorem ReportsAnswered.behind (answered : ReportsAnswered s t) (some : s.reports.queue ≠ []) : ∃ tail events,
    t.reports = { s.reports with queue := s.reports.queue ++ tail, events := events } := by
  cases answered with
  | stands eq => exact ⟨[], s.reports.events, by rw [eq, List.append_nil]⟩
  | masked m eq => exact ⟨[], s.reports.events.restrict m, by rw [eq, List.append_nil]⟩
  | raised e eq =>
    obtain ⟨tail, queue⟩ := raise_prefix s.reports s.unitAddress s.session.mask e
    refine ⟨tail, (s.reports.raise s.unitAddress s.session.mask e).events, ?_⟩
    rw [eq, raise_behind some, queue]
    exact unit_eq_of_frame (by simp) (by simp) (by simp) (by simp) (by simp)

/-! ### The reserved slot (R136, R150) -/

/-- The unit with its first reserved slot filled. -/
def ReportUnit.filling (b : List Byte) (r : ReportUnit) : ReportUnit := { r with queue := fillReserved b r.queue }

/-- A slot stands reserved, and whatever report fills it leaves the unit legal. -/
structure ReportUnit.Opened (r : ReportUnit) : Prop where
  some : r.queue ≠ []
  filled : ∀ b, (r.filling b).Legal

theorem fillReserved_length (b : List Byte) (q : List ReportSlot) : (fillReserved b q).length = q.length := by
  induction q with
  | nil => rfl
  | cons x q ih => cases x <;> simp [fillReserved, ih]

/-- What is built behind a reserved slot does not change which slot is filled. -/
theorem fillReserved_append_filled (b c : List Byte) (q : List ReportSlot) :
    fillReserved b (q ++ [.filled c]) = fillReserved b q ++ [.filled c] := by
  induction q with
  | nil => rfl
  | cons x q ih => cases x <;> simp [fillReserved, ih]

theorem buildOne_filling (b : List Byte) (r : ReportUnit) (a : BitVec 4) :
    (r.buildOne a).filling b = (r.filling b).buildOne a := by
  have free : (r.filling b).freeSlots = r.freeSlots := by
    simp only [ReportUnit.freeSlots, ReportUnit.filling, fillReserved_length]
  by_cases few : r.freeSlots < 2
  · rw [buildOne_few few, buildOne_few (free ▸ few)]
  · cases first : r.events.first with
    | none =>
      have empty := first_none first
      rw [buildOne_empty empty, buildOne_empty (r := r.filling b) empty]
    | some e =>
      have two : 2 ≤ r.freeSlots := Nat.le_of_not_lt few
      rw [buildOne_some two first, buildOne_some (r := r.filling b) (free ▸ two) first]
      simp only [ReportUnit.filling, fillReserved_append_filled]

theorem raise_filling (b : List Byte) (r : ReportUnit) (a : BitVec 4) (m : EventMask) (e : Event) :
    (r.raise a m e).filling b = (r.filling b).raise a m e := by
  unfold ReportUnit.raise
  split
  · simp only [ReportUnit.build, buildOne_filling]
    rfl
  · rfl

/-- The head of a queue stands before what is appended. -/
theorem reportHead_append (some : r.queue ≠ []) (tail : List ReportSlot) :
    ({ r with queue := r.queue ++ tail } : ReportUnit).reportHead = r.reportHead := by
  unfold ReportUnit.reportHead
  cases queue : r.queue with
  | nil => exact absurd queue some
  | cons x q => cases x <;> rfl

theorem reserveSlot_opened (legal : s.reports.Legal) (room : s.reports.queue.length < 8) : (reserveSlot s).reports.Opened where
  some := by simp [reserveSlot]
  filled b := by
    have queue : fillReserved b (s.reports.queue ++ [.reserved]) = s.reports.queue ++ [.filled b] :=
      fillReserved_tail b _ [] legal.filled
    have head : ∀ q, (s.reports.headOf q).isSome = true → (((reserveSlot s).reports.filling b).headOf q).isSome = true := by
      intro q stands
      cases q with
      | relay => exact stands
      | report =>
        have some : s.reports.queue ≠ [] := fun none => by
          simp [ReportUnit.headOf, ReportUnit.reportHead, none] at stands
        simp only [ReportUnit.headOf, ReportUnit.filling, reserveSlot, queue, reportHead_append some]
        exact stands
    exact { legal with
      queue := by simp only [ReportUnit.filling, reserveSlot, queue, List.length_append, List.length_singleton]; omega
      filled := fun x among => by
        simp only [ReportUnit.filling, reserveSlot, queue] at among
        rcases List.mem_append.mp among with stood | new
        · exact legal.filled x stood
        · simp [List.mem_singleton.mp new]
      waiting := fun waits => by
        have few := legal.waiting waits
        simp only [ReportUnit.freeSlots, ReportUnit.filling, reserveSlot, queue, List.length_append, List.length_singleton] at few ⊢
        omega
      sending := fun q sends => ⟨head q (legal.sending q sends).1, (legal.sending q sends).2⟩
      abandoned := fun q left => head q (legal.abandoned q left) }

theorem reserveSlot_settled (settled : s.ArbiterSettled) : (reserveSlot s).ArbiterSettled := by
  refine settled_congr settled rfl rfl rfl rfl fun none => ?_
  by_cases empty : s.reports.queue = []
  · simp [ReportUnit.reportHead, reserveSlot, empty]
  · exact (reportHead_append empty [.reserved]).trans none

theorem raise_opened (opened : r.Opened) (a : BitVec 4) (m : EventMask) (e : Event) : (r.raise a m e).Opened := by
  refine ⟨fun empty => ?_, fun b => ?_⟩
  · have stood := raise_prefix r a m e
    rw [empty, List.prefix_nil] at stood
    exact opened.some stood
  · rw [raise_filling]
    exact raise_legal (opened.filled b) a m e

/-- An answer behind the reserved slot leaves it to be filled. -/
theorem ReportsAnswered.opened (answered : ReportsAnswered s t) (opened : s.reports.Opened) : t.reports.Opened := by
  cases answered with
  | stands eq => exact eq ▸ opened
  | masked m eq => exact eq ▸ ⟨opened.some, fun b => restrict_legal (opened.filled b) m⟩
  | raised e eq =>
    rw [eq, raise_behind opened.some]
    exact raise_opened opened s.unitAddress s.session.mask e

theorem fillSlot_legal (opened : s.reports.Opened) (a : Ack) (isRepeat : Bool) : (fillSlot a isRepeat s).reports.Legal :=
  reportFilled_legal (s := { s with reports := s.reports.filling _, session := _ }) (opened.filled _) _

/-- An acknowledgement filled at the head of the queue is offered to the arbiter (R157). -/
theorem fillSlot_settled (settled : s.ArbiterSettled) (a : Ack) (isRepeat : Bool) : (fillSlot a isRepeat s).ArbiterSettled :=
  reportFilled_settled settled rfl rfl rfl rfl

/-! ### A command taken -/

/-- A unicast that reaches the sequence stage is answered in the reserved slot, behind which its block has answered at most. -/
theorem sequenceStage_fills (seq code : Byte) (p : List Byte) (s : State) : ∃ a isRepeat t,
    sequenceStage seq code p s = fillSlot a isRepeat t ∧ ReportsAnswered s t ∧ t.resetAsserted = s.resetAsserted ∧
      t.upstreamRoom = s.upstreamRoom := by
  have kept : ∀ a isRepeat, ∃ b rep t, fillSlot a isRepeat s = fillSlot b rep t ∧ ReportsAnswered s t ∧
      t.resetAsserted = s.resetAsserted ∧ t.upstreamRoom = s.upstreamRoom :=
    fun a isRepeat => ⟨a, isRepeat, s, rfl, .stands rfl, rfl, rfl⟩
  have accepted : ∃ a isRepeat t, acceptCommand seq code p s = fillSlot a isRepeat t ∧ ReportsAnswered s t ∧
      t.resetAsserted = s.resetAsserted ∧ t.upstreamRoom = s.upstreamRoom := by
    have front := dispatch_front code p (consume seq s)
    refine ⟨_, false, _, rfl, ?_, front.resetAsserted, front.upstreamRoom⟩
    cases dispatch_reports code p (consume seq s) with
    | stands eq => exact .stands eq
    | masked m eq => exact .masked m eq
    | raised e eq => exact .raised e eq
  unfold sequenceStage
  split
  · split
    · exact accepted
    · exact kept _ false
  · split
    · exact kept _ true
    · split
      · exact accepted
      · exact kept _ false

theorem takeUnicast_kept (seq code : Byte) (p : List Byte) (s : State) : ReportsKept s (takeUnicast seq code p s) := by
  unfold takeUnicast
  split
  · exact .untouched rfl rfl rfl
  · next free =>
    obtain ⟨a, isRepeat, t, eq, answered, reset, room⟩ := sequenceStage_fills seq code p (reserveSlot s)
    have slot : s.reports.queue.length < 8 := by
      simp only [ReportUnit.freeSlots, Config.reportSlots] at free
      omega
    rw [eq]
    exact ⟨fun legal => fillSlot_legal (answered.opened (reserveSlot_opened legal slot)) a isRepeat,
      fun settled => fillSlot_settled ((answered.kept reset room).settled (reserveSlot_settled settled)) a isRepeat⟩

theorem takeBroadcast_kept (code : Byte) (p : List Byte) (s : State) : ReportsKept s (takeBroadcast code p s) := by
  unfold takeBroadcast
  dsimp only
  split
  · split
    · exact dispatch_kept code p s
    · exact .untouched rfl rfl rfl
  · exact .untouched rfl rfl rfl

theorem handOver_kept (how : Addressing) (seq code : Byte) (p : List Byte) (s : State) :
    ReportsKept s (handOver how seq code p s) := by
  cases how with
  | unicast => exact takeUnicast_kept seq code p s
  | broadcast => exact takeBroadcast_kept code p s

theorem takeCommand_kept (how : Addressing) (seq code : Byte) (p : List Byte) (s : State) :
    ReportsKept s (takeCommand how seq code p s) := by
  unfold takeCommand
  split
  · exact handOver_kept how seq code p s
  · exact .refl s

theorem decidePacket_kept (s : State) : ReportsKept s (decidePacket s) := by
  unfold decidePacket
  dsimp only
  split
  · exact (countTruncated_kept (releaseAll s.packetClosed)).preceded rfl rfl rfl
  · exact (countCrc_kept (releaseAll s.packetClosed)).preceded rfl rfl rfl
  · split
    · exact (handOver_kept _ _ _ _ (releaseAll s.packetClosed)).preceded rfl rfl rfl
    · split
      · exact (handOver_kept _ _ _ _ (removeHeld s.packetClosed)).preceded rfl rfl rfl
      · exact .untouched rfl rfl rfl

theorem filterPacketEnd_kept (s : State) : ReportsKept s (filterPacketEnd s) := by
  unfold filterPacketEnd
  split
  · exact .untouched rfl rfl rfl
  · exact decidePacket_kept s
  · exact (countTruncated_kept (closePacket (join .packetEnd false s))).preceded rfl rfl rfl
  · exact .untouched rfl rfl rfl

/-! ### Any command -/

theorem hardReset_kept (straps : BitVec 4) (u : State) : ReportsKept s (hardReset straps u) :=
  ⟨fun _ => reports_reset_legal, fun _ => settled_of_down rfl⟩

/-- Every command keeps the laws of the report unit, and leaves the arbiter nothing to decide where it had nothing. -/
theorem exec_reportsKept {c : Instr} (run : exec c s = .next t) : ReportsKept s t := by
  cases packet : carried c with
  | some taken =>
    obtain ⟨how, seq, code, p⟩ := taken
    exact Host.Outcome.next.inj ((exec_host packet s).symm.trans run) ▸ takeCommand_kept how seq code p s
  | none =>
    have next : ∀ u : State, exec c s = .next u → ReportsKept s u → ReportsKept s t :=
      fun u ran kept => Host.Outcome.next.inj (ran.symm.trans run) ▸ kept
    cases c <;> simp only [carried, reduceCtorEq] at packet
    case frameStart => exact next _ rfl (onSymbol_kept (takeFrameStart_kept s))
    case lineStart =>
      exact next _ rfl (onSymbol_kept (((trackSymbol_kept .lineStart s).trans (filterRaster_kept .lineStart _)).followed
        (by simp [takeLineStart]) (by simp [takeLineStart]) (by simp [takeLineStart])))
    case pixel c0 c1 c2 => exact next _ rfl (onSymbol_kept ((trackSymbol_kept _ s).trans (filterRaster_kept _ _)))
    case lineEnd =>
      exact next _ rfl (onSymbol_kept (((trackSymbol_kept _ s).trans (filterRaster_kept .lineEnd _)).followed rfl rfl rfl))
    case frameEnd => exact next _ rfl (onSymbol_kept (takeFrameEnd_kept s))
    case packetStart => exact next _ rfl (onSymbol_kept ((trackSymbol_kept _ s).trans (filterPacketStart_kept _)))
    case packetByte b =>
      exact next _ rfl (onSymbol_kept ((trackSymbol_kept (.packetByte b) s).followed (by simp) (by simp) (by simp)))
    case packetEnd => exact next _ rfl (onSymbol_kept ((trackSymbol_kept _ s).trans (filterPacketEnd_kept _)))
    case idle => exact next _ rfl (onSymbol_kept ((trackSymbol_kept .idle s).followed (by simp) (by simp) (by simp)))
    case forwardLinkDown =>
      refine next _ rfl ?_
      split
      · exact loseForwardLink_kept s
      · exact .refl s
    case forwardLinkUp =>
      refine next _ rfl ?_
      split
      · unfold gainForwardLink
        dsimp only
        split <;> exact .untouched rfl rfl rfl
      · exact .refl s
    case drainEnd =>
      refine next _ rfl ?_
      unfold endDrain
      split
      · exact .refl s
      · exact .untouched (by simp) (by simp) (by simp)
    case resetAssert =>
      refine next _ rfl ?_
      split
      · exact .refl s
      · have reports : (assertReset s).reports = s.reports := by simp [assertReset]
        refine ⟨fun legal => reports ▸ legal, fun _ => settled_of_down ?_⟩
        simp [State.retOutUp, assertReset]
    case resetRelease straps => exact next _ rfl (hardReset_kept straps _)
    case powerUp straps => exact next _ rfl (hardReset_kept straps _)
    case upstreamRoomAsserted => exact next _ rfl ⟨fun legal => startTransmission_legal legal, fun _ => startTransmission_settled _⟩
    case upstreamRoomWithdrawn => exact next _ rfl ⟨id, fun _ _ asserted => by cases asserted⟩
    case transmissionStart => exact next _ rfl (startTransmission_kept s)
    case transmissionEnd => exact next _ rfl (endTransmission_kept s)
    case relayPacketStart => exact next _ rfl (onRelay_kept relayStart_change s)
    case relayPacketByte b => exact next _ rfl (onRelay_kept (relayByte_change b) s)
    case relayPacketEnd => exact next _ rfl (endRelayPacket_kept s)
    case relayIdle => exact next _ rfl (.refl s)
    case returnOutputLinkDown =>
      refine next _ rfl ?_
      split
      · exact .refl s
      · exact ⟨loseOutput_legal, fun _ => settled_of_down (by simp [State.retOutUp, ReportUnit.loseOutput])⟩
    case returnOutputLinkUp =>
      refine next _ rfl ?_
      split
      · exact .refl s
      · exact ⟨fun legal => startTransmission_legal (outputLaneUp_legal legal), fun _ => startTransmission_settled _⟩
    case returnInputLinkDown =>
      refine next _ rfl ?_
      split
      · exact .refl s
      · have dropped : ReportsKept s (s.relayed (relayDrop s.reports.relay)) := (relayDrop_change _).kept
        exact dropped.trans ⟨fun legal => inputLaneUp_legal legal false, id⟩
    case returnInputLinkUp =>
      refine next _ rfl ?_
      split
      · exact .refl s
      · exact ⟨fun legal => inputLaneUp_legal legal true, id⟩

end

end Sys2Proof.Machine

namespace Sys2Proof.ReturnLane

open Sys2Proof.Machine

/-- Settles O7: each part of a command keeps the laws of the unit, and decides wherever it makes the arbiter's conditions hold. -/
theorem stepKeepsReportUnitLegal : Obligations.StepKeepsReportUnitLegal := by
  unfold Obligations.StepKeepsReportUnitLegal
  have kept : ∀ s t : State, step s = .next t → ReportsKept s t := by
    intro s t run
    unfold step at run
    split at run
    · exact Host.Outcome.next.inj run ▸ .refl s
    · next c rest waiting => exact (exec_reportsKept run).preceded rfl rfl rfl
  exact ⟨fun s t legal run => (kept s t run).legal legal, fun s t settled run => (kept s t run).settled settled⟩

end Sys2Proof.ReturnLane
end

section
/-! What the return lane does with the relay queue, with an event and with a transmission (R152 to R160). -/

namespace Sys2Proof.Machine

section
variable {s : State} {r : ReportUnit}

/-- ROOM toward the unit below stands while a place is free (R156). -/
theorem roomBelow_iff (released : s.resetAsserted = false) : s.roomBelow = true ↔ s.reports.relay.length < 4 := by
  rw [State.roomBelow, released]
  exact decide_eq_true_iff

/-! ### Events (R152, R153) -/

theorem freeSlots_two_iff : 2 ≤ r.freeSlots ↔ r.queue.length ≤ 6 := by
  simp only [ReportUnit.freeSlots, Config.reportSlots]
  omega

/-- With two slots free no event waits. -/
theorem events_empty_of_free (legal : r.Legal) (free : 2 ≤ r.freeSlots) : r.events = PendingEvents.empty := by
  by_contra waits
  have few := legal.waiting waits
  omega

theorem raise_free {m : EventMask} {e : Event} (legal : r.Legal) (enabled : m.has e.kind = true) (room : r.queue.length ≤ 6)
    (a : BitVec 4) : r.raise a m e = { r with queue := r.queue ++ [.filled (eventReport a e)] } :=
  have free := freeSlots_two_iff.mpr room
  raise_built enabled (events_empty_of_free legal free) free a

theorem raise_few {m : EventMask} {e : Event} (enabled : m.has e.kind = true) (few : 7 ≤ r.queue.length) (a : BitVec 4) :
    r.raise a m e = { r with events := r.events.record e } :=
  raise_waits enabled (Nat.lt_of_not_le fun free => by have := freeSlots_two_iff.mp free; omega) a

/-- An event of a masked kind changes nothing. -/
theorem raise_state_masked {e : Event} (masked : s.session.mask.has e.kind = false) : raise e s = s := by
  unfold raise
  rw [raise_masked masked]
  unfold reportFilled
  cases s.reports.reportHead <;> rfl

/-- A report built into an empty queue is offered to the arbiter (R157). -/
theorem raise_empty {e : Event} (legal : s.reports.Legal) (enabled : s.session.mask.has e.kind = true)
    (empty : s.reports.queue = []) : raise e s = startTransmission { s with
      reports := { s.reports with queue := s.reports.queue ++ [.filled (eventReport s.unitAddress e)] } } := by
  unfold raise
  rw [raise_free legal enabled (by simp [empty])]
  refine reportFilled_decides (by simp [ReportUnit.reportHead, empty]) ?_
  simp [ReportUnit.reportHead, empty]

/-! ### Transmissions (R157 to R159) -/

/-- With an abandoned packet the decision begins it again, ahead of any choice (R159). -/
theorem startTransmission_abandoned {q : QueueName} (up : s.retOutUp = true) (room : s.upstreamRoom = true)
    (left : s.reports.transmitter = .abandoned q) :
    startTransmission s = { s with reports := { s.reports with transmitter := .sending q } } := by
  simp [startTransmission, up, room, ReportUnit.begin, left]

/-- A free transmitter begins the packet of the queue chosen (R157). -/
theorem startTransmission_chosen {q : QueueName} (up : s.retOutUp = true) (room : s.upstreamRoom = true)
    (free : s.reports.transmitter = .free) (chosen : s.reports.choice = some q) :
    startTransmission s = { s with reports := { s.reports with transmitter := .sending q, lastServed := q } } := by
  simp [startTransmission, up, room, ReportUnit.begin, free, chosen]

theorem startTransmission_unchosen (free : s.reports.transmitter = .free) (unchosen : s.reports.choice = none) :
    startTransmission s = s := by
  simp [startTransmission, ReportUnit.begin, free, unchosen]

theorem choice_report (report : r.reportHead.isSome = true) (relay : r.relayHead = none) : r.choice = some .report := by
  obtain ⟨b, head⟩ := Option.isSome_iff_exists.mp report
  simp [ReportUnit.choice, head, relay]

theorem choice_relay (report : r.reportHead = none) (relay : r.relayHead.isSome = true) : r.choice = some .relay := by
  obtain ⟨b, head⟩ := Option.isSome_iff_exists.mp relay
  simp [ReportUnit.choice, head, report]

theorem choice_turn (report : r.reportHead.isSome = true) (relay : r.relayHead.isSome = true) :
    r.choice = some (if r.lastServed = .report then .relay else .report) := by
  obtain ⟨b, head⟩ := Option.isSome_iff_exists.mp report
  obtain ⟨c, head'⟩ := Option.isSome_iff_exists.mp relay
  simp [ReportUnit.choice, head, head']

theorem choice_nothing (report : r.reportHead = none) (relay : r.relayHead = none) : r.choice = none := by
  simp [ReportUnit.choice, report, relay]

/-- The report queue has its turn where the relay queue has nothing to send or was served last. -/
theorem choice_report_turn (report : r.reportHead.isSome = true) (turn : r.relayHead = none ∨ r.lastServed = .relay) :
    r.choice = some .report := by
  cases relay : r.relayHead with
  | none => exact choice_report report relay
  | some b =>
    have served : r.lastServed = .relay := turn.resolve_left (by simp [relay])
    rw [choice_turn report (by simp [relay]), served]
    rfl

theorem loseOutput_busy {q : QueueName} (busy : r.transmitter = .sending q ∨ r.transmitter = .abandoned q) :
    r.loseOutput = { r with outputLaneUp := false, transmitter := .abandoned q } := by
  rcases busy with sends | left <;> simp [ReportUnit.loseOutput, *]

theorem loseOutput_free (free : r.transmitter = .free) : r.loseOutput = { r with outputLaneUp := false } := by
  simp [ReportUnit.loseOutput, free]

/-- The packet at the head is sent whole and leaves its queue, and the arbiter decides again (R158). -/
theorem endTransmission_sends {q : QueueName} {bytes : List Byte} (up : s.retOutUp = true)
    (sends : s.reports.transmitter = .sending q) (head : s.reports.headOf q = some bytes) :
    endTransmission s = startTransmission { s with
      retSent := s.retSent ++ [bytes], reports := s.reports.finish s.unitAddress q } := by
  simp [endTransmission, up, sends, head]

theorem exec_returnOutputLinkUp (released : s.resetAsserted = false) : exec .returnOutputLinkUp s =
    .next (startTransmission { s with reports := { s.reports with outputLaneUp := true } }) :=
  congrArg Host.Outcome.next (if_neg (by simp [released]))

theorem exec_returnOutputLinkDown (released : s.resetAsserted = false) : exec .returnOutputLinkDown s =
    .next { s with reports := s.reports.loseOutput } :=
  congrArg Host.Outcome.next (if_neg (by simp [released]))

theorem exec_returnInputLinkDown (released : s.resetAsserted = false) : exec .returnInputLinkDown s =
    .next { s with reports := { s.reports with inputLaneUp := false, relay := relayDrop s.reports.relay } } :=
  congrArg Host.Outcome.next (if_neg (by simp [released]))

theorem exec_returnInputLinkUp (released : s.resetAsserted = false) : exec .returnInputLinkUp s =
    .next { s with reports := { s.reports with inputLaneUp := true } } :=
  congrArg Host.Outcome.next (if_neg (by simp [released]))

/-! ### The report queue behind a report sent (R153, R158) -/

section
variable {bytes : List Byte} {rest : List ReportSlot} (a : BitVec 4)

/-- The unit with these reports left and nothing under way. -/
def ReportUnit.leaving (rest : List ReportSlot) (r : ReportUnit) : ReportUnit := { r with queue := rest, transmitter := .free }

theorem finish_report (sent : r.queue = .filled bytes :: rest) : r.finish a .report = (r.leaving rest).build a := by
  rw [ReportUnit.finish, sent]
  rfl

/-- Only the queue and the pending events are touched by the building. -/
theorem finish_report_frame (r : ReportUnit) : r.finish a .report = { r with
    queue := (r.finish a .report).queue, events := (r.finish a .report).events, transmitter := .free } :=
  unit_eq_of_frame (r := { r with transmitter := .free }) (by simp [ReportUnit.finish]) (by simp [ReportUnit.finish])
    (by simp [ReportUnit.finish]) (by simp [ReportUnit.finish]) (by simp [ReportUnit.finish])

theorem finish_report_empty (sent : r.queue = .filled bytes :: rest) (none : r.events = PendingEvents.empty) :
    r.finish a .report = r.leaving rest :=
  (finish_report a sent).trans (build_empty (r := r.leaving rest) none a)

theorem finish_report_few (sent : r.queue = .filled bytes :: rest) (few : 7 ≤ rest.length) :
    r.finish a .report = r.leaving rest := by
  have free : (r.leaving rest).freeSlots < 2 := Nat.lt_of_not_le fun two => absurd (freeSlots_two_iff.mp two) (Nat.not_le.mpr few)
  exact (finish_report a sent).trans (build_few free a)

theorem finish_report_two (sent : r.queue = .filled bytes :: rest) (six : rest.length = 6) {e : Event}
    (first : r.events.first = some e) : r.finish a .report =
      { r.leaving rest with queue := rest ++ [.filled (eventReport a e)], events := r.events.drop e.kind } :=
  (finish_report a sent).trans (build_two (r := r.leaving rest) six first a)

end

/-- A unicast answered into an empty report queue puts its acknowledgement at the head, where the arbiter serves it (R157). -/
theorem takeUnicast_begins (up : s.retOutUp = true) (room : s.upstreamRoom = true) (empty : s.reports.queue = [])
    (free : s.reports.transmitter = .free) (turn : s.reports.relayHead = none ∨ s.reports.lastServed = .relay)
    (seq code : Byte) (p : List Byte) : (takeUnicast seq code p s).reports.transmitter = .sending .report ∧
      (takeUnicast seq code p s).reports.lastServed = .report := by
  have slot : s.reports.freeSlots ≠ 0 := by simp [ReportUnit.freeSlots, Config.reportSlots, empty]
  rw [takeUnicast, if_neg slot]
  obtain ⟨a, isRepeat, t, eq, answered, reset, asserted⟩ := sequenceStage_fills seq code p (reserveSlot s)
  obtain ⟨tail, events, reports⟩ := answered.behind (by simp [reserveSlot])
  rw [eq]
  have queue : t.reports.queue = .reserved :: tail := by simp [reports, reserveSlot, empty]
  have begins : ∀ (x : Session) (b : List Byte), reportFilled t.reports { t with
      session := x, reports := { t.reports with queue := .filled b :: tail } } =
      { t with session := x, reports := { t.reports with
        queue := .filled b :: tail, transmitter := .sending .report, lastServed := .report } } := by
    intro x b
    rw [reportFilled_decides (by simp [ReportUnit.reportHead, queue]) rfl]
    refine startTransmission_chosen ?_ (asserted.trans room) ?_ (choice_report_turn rfl ?_)
    · simpa [State.retOutUp, reports, reset, reserveSlot] using up
    · simpa [reports, reserveSlot] using free
    · simpa [reports, reserveSlot, ReportUnit.relayHead] using turn
  unfold fillSlot
  simp only [queue, fillReserved, begins, and_self]

end

end Sys2Proof.Machine

namespace Sys2Proof.ReturnLane

open Sys2Proof.Machine

/-- Settles O60: an event is masked, or its report is built where two slots are free, or it waits. -/
theorem eventsAreBuiltOrWait : Obligations.EventsAreBuiltOrWait := by
  unfold Obligations.EventsAreBuiltOrWait
  refine ⟨fun s e legal => ⟨fun masked => ?_, fun enabled empty => ?_, fun enabled some room => ?_, fun enabled few => ?_⟩,
    fun r source mask e legal => ⟨fun masked => raise_masked masked source, fun enabled room => raise_free legal enabled room source,
      fun enabled few => raise_few enabled few source⟩, fun p => ?_⟩
  · exact congrArg State.reports (raise_state_masked masked)
  · exact ⟨_, rfl, congrArg State.reports (raise_empty legal enabled empty)⟩
  · exact (congrArg State.reports (raise_behind some e)).trans (raise_free legal enabled room _)
  · have some : s.reports.queue ≠ [] := fun empty => by simp [empty] at few
    exact (congrArg State.reports (raise_behind some e)).trans (raise_few enabled few _)
  · refine ⟨fun x raster => ?_, fun x raster commit => ?_, fun x raster commit truncation => ?_,
      fun x raster commit truncation link => ?_⟩ <;> simp only [PendingEvents.first, *, Option.map_some]

/-- Settles O58, symbol by symbol on a queue with a packet in reception at its tail and on one without. -/
theorem relayQueueReceivesPackets : Obligations.RelayQueueReceivesPackets := by
  unfold Obligations.RelayQueueReceivesPackets
  intro s released up held relayed l noneOpen
  have relays : s.relays := ⟨released, up⟩
  have room : ∀ k, (held k).roomBelow = true ↔ k.length < 4 := fun k => roomBelow_iff (s := held k) released
  have symbol : ∀ {c : Instr} {k : List RelayPlace} (f : List RelayPlace → List RelayPlace),
      exec c s = .next (onRelay f s) → f l = k → relayed c k := by
    rintro c k f run rfl
    exact ⟨_, run.trans (congrArg Host.Outcome.next (onRelay_up relays f)), rfl, room _⟩
  have ended : ∀ {k : List RelayPlace}, relayEnd l = k → (held k).reports.relayHead = s.reports.relayHead →
      relayed .relayPacketEnd k := by
    rintro k rfl head
    exact ⟨_, congrArg Host.Outcome.next (endRelayPacket_behind relays head), rfl, room _⟩
  refine ⟨fun none free => ?_, fun none full => ?_, fun front bytes stood => ⟨?_, fun b free => ?_, fun b full => ?_, fun short => ?_,
    fun long behind => ?_, fun long alone => ?_, ?_⟩, fun none => ⟨fun b => ?_, ?_, ?_⟩, ?_, fun u released down => ?_⟩
  · exact symbol relayStart rfl (relayStart_room (receivingRelay_eq_false_iff.mpr none) free)
  · exact symbol relayStart rfl (relayStart_full (receivingRelay_eq_false_iff.mpr none) full)
  · exact symbol relayStart rfl (stood ▸ relayStart_open)
  · exact symbol (relayByte b) rfl (stood ▸ relayByte_open b free)
  · exact symbol (relayByte b) rfl (stood ▸ relayByte_full b full)
  · have head := relayHead_open s.reports front bytes
    rw [← stood] at head
    exact ended (stood ▸ relayEnd_short short) head.symm
  · have head := relayHead_behind s.reports behind ⟨bytes, false⟩
    rw [← stood] at head
    exact ended (stood ▸ relayEnd_whole long) ((relayHead_behind s.reports behind ⟨bytes, true⟩).trans head.symm)
  · subst alone
    refine ⟨_, rfl, congrArg Host.Outcome.next (endRelayPacket_head relays stood long).symm, ?_, ?_⟩
    · simp [endRelayPacket_head relays stood long, State.relayed]
    · rw [endRelayPacket_head relays stood long]
      exact (roomBelow_iff (by simpa [State.relayed] using released)).mpr (by simp [State.relayed])
  · rw [exec_returnInputLinkDown released, show s.reports.relay = _ from stood, relayDrop_open]
  · exact symbol (relayByte b) rfl (relayByte_none (receivingRelay_eq_false_iff.mpr none) b)
  · exact ended (relayEnd_none (receivingRelay_eq_false_iff.mpr none)) rfl
  · rw [exec_returnInputLinkDown released, relayDrop_none (receivingRelay_eq_false_iff.mpr none)]
  · exact ⟨s, rfl, rfl, room l⟩
  · have still : ¬u.relays := fun relays => by simp [relays.2] at down
    exact ⟨exec_returnInputLinkUp released, congrArg Host.Outcome.next (onRelay_still still relayStart),
      fun b => congrArg Host.Outcome.next (onRelay_still still (relayByte b)),
      congrArg Host.Outcome.next (endRelayPacket_still still)⟩

/-- Settles O59, clause by clause on the arbiter's decision and the end of a transmission. -/
theorem transmitterServesTheQueuesInTurn : Obligations.TransmitterServesTheQueuesInTurn := by
  unfold Obligations.TransmitterServesTheQueuesInTurn
  intro s released r begun decides
  have lane : r.outputLaneUp = true → s.retOutUp = true := fun up => by simpa [State.retOutUp, released] using up
  refine ⟨⟨_, rfl, rfl⟩, rfl, ⟨_, exec_returnOutputLinkUp released, rfl⟩, fun q left => ⟨fun up => ?_, fun room => ?_⟩,
    fun q busy => ?_, fun free => ?_, fun off => ?_, fun settled => ?_, fun up room => ⟨fun q left => ?_, fun free report relay => ?_,
      fun free report relay => ?_, fun free report relay => ?_, fun free report relay => ?_, ?_⟩, ?_, ?_⟩
  · exact congrArg Host.Outcome.next (startTransmission_abandoned (s := { s with upstreamRoom := true }) (lane up) rfl left)
  · rw [exec_returnOutputLinkUp released]
    exact congrArg Host.Outcome.next (startTransmission_abandoned (s := { s with reports := { r with outputLaneUp := true } })
      (by simp [State.retOutUp, released]) room left)
  · rw [exec_returnOutputLinkDown released, loseOutput_busy busy]
  · rw [exec_returnOutputLinkDown released, loseOutput_free free]
  · refine congrArg Host.Outcome.next (startTransmission_waits ?_)
    rcases off with off | off
    · simp [off]
    · simp [State.retOutUp, show s.reports.outputLaneUp = false from off]
  · exact congrArg Host.Outcome.next (startTransmission_idle settled)
  · exact congrArg Host.Outcome.next (startTransmission_abandoned (lane up) room left)
  · exact congrArg Host.Outcome.next (startTransmission_chosen (lane up) room free (choice_report report relay))
  · exact congrArg Host.Outcome.next (startTransmission_chosen (lane up) room free (choice_relay report relay))
  · exact congrArg Host.Outcome.next (startTransmission_chosen (lane up) room free (choice_turn report relay))
  · exact congrArg Host.Outcome.next (startTransmission_unchosen free (choice_nothing report relay))
  · intro i seq code p row reach empty free turn
    refine ⟨_, exec_host row s, ?_⟩
    rw [takeCommand, if_pos reach]
    exact takeUnicast_begins (lane up) room empty free turn seq code p
  · intro bytes rest up sends queue
    have head : s.reports.headOf .relay = some bytes := by
      simp [ReportUnit.headOf, ReportUnit.relayHead, show s.reports.relay = _ from queue]
    refine ⟨_, congrArg Host.Outcome.next (endTransmission_sends (lane up) sends head), ?_⟩
    rw [ReportUnit.finish, show s.reports.relay = _ from queue]
    rfl
  · intro bytes rest up sends queue
    have head : s.reports.headOf .report = some bytes := by
      simp [ReportUnit.headOf, ReportUnit.reportHead, show s.reports.queue = _ from queue]
    refine ⟨_, ⟨_, congrArg Host.Outcome.next (endTransmission_sends (lane up) sends head), rfl⟩, ?_, ?_, fun none => ?_,
      fun few => ?_, fun e six first => ?_⟩
    · exact congrArg (fun u => ({ s with retSent := s.retSent ++ [bytes], reports := u } : State)) (finish_report_frame _ _)
    · show rest <+: (r.finish s.unitAddress .report).queue
      rw [finish_report _ queue]
      exact build_prefix (r.leaving rest) s.unitAddress
    all_goals show (r.finish s.unitAddress .report).queue = _ ∧ (r.finish s.unitAddress .report).events = _
    · rw [finish_report_empty _ queue none]
      exact ⟨rfl, none⟩
    · rw [finish_report_few _ queue few]
      exact ⟨rfl, rfl⟩
    · rw [finish_report_two _ queue six first]
      exact ⟨rfl, rfl⟩

end Sys2Proof.ReturnLane
end

section
/-! The forward packet and the command it spells (R162 to R164, R166): what passes the checks is exactly a packet written out with
its header, payload length and CRC, and the rows of the command table are told apart by code and mode byte. -/

namespace Sys2Proof.Machine

/-! ### The written packet -/

/-- What the CRC of a forward packet covers (R166): header, payload length and payload. -/
def packetBody (kind dest seq code : Byte) (p : List Byte) : List Byte :=
  [kind, dest, seq, code] ++ be16 p.length ++ p

/-- A forward packet with any kind byte: the checks of R124 and R125 do not read it. -/
def packetOfKind (kind dest seq code : Byte) (p : List Byte) : List Byte :=
  packetBody kind dest seq code p ++ crcBytes (packetBody kind dest seq code p)

theorem packetOfKind_command (dest seq code : Byte) (p : List Byte) :
    packetOfKind kindCommand dest seq code p = packetBytesOf dest seq code p := rfl

@[simp] theorem crcBytes_length (bytes : List Byte) : (crcBytes bytes).length = 2 := rfl

@[simp] theorem packetBody_length (kind dest seq code : Byte) (p : List Byte) :
    (packetBody kind dest seq code p).length = p.length + 6 := rfl

@[simp] theorem packetOfKind_length (kind dest seq code : Byte) (p : List Byte) :
    (packetOfKind kind dest seq code p).length = p.length + 8 := by
  simp [packetOfKind]

/-- Two bytes are the field that carries their value (R162). -/
theorem be16_of_bytes (a b : Byte) : be16 (a.toNat * 256 + b.toNat) = [a, b] := by
  have high : (a.toNat * 256 + b.toNat) / 256 = a.toNat := by have := b.isLt; omega
  have low : u8 (a.toNat * 256 + b.toNat) = b := by
    apply BitVec.eq_of_toNat_eq
    have := b.isLt
    simp only [u8, BitVec.toNat_ofNat]
    omega
  rw [be16, high, low, u8_toNat]

/-- A packet of the least length has a header with its payload length. -/
theorem exists_header {bytes : List Byte} (long : 6 ≤ bytes.length) :
    ∃ kind d seq code high low rest, bytes = kind :: d :: seq :: code :: high :: low :: rest := by
  match bytes with
  | kind :: d :: seq :: code :: high :: low :: rest => exact ⟨kind, d, seq, code, high, low, rest, rfl⟩
  | [] | [_] | [_, _] | [_, _, _] | [_, _, _, _] | [_, _, _, _, _] => simp at long

/-! ### The checks accept the written packets and no others -/

/-- The packet written for header fields and a payload of at most 65535 bytes passes, and reads back as them. -/
theorem checkPacket_packetOfKind {p : List Byte} (short : p.length < 65536) (kind dest seq code : Byte) :
    checkPacket (packetOfKind kind dest seq code p) = .good (dest.setWidth 4) seq code p := by
  have length : u16At (packetOfKind kind dest seq code p) 4 = p.length := be16_value short
  have body : (packetOfKind kind dest seq code p).take (p.length + 6) = packetBody kind dest seq code p :=
    List.take_left' (packetBody_length ..)
  have crc : (packetOfKind kind dest seq code p).drop (p.length + 6) = crcBytes (packetBody kind dest seq code p) :=
    List.drop_left' (packetBody_length ..)
  have payload : ((packetOfKind kind dest seq code p).drop 6).take p.length = p := List.take_left' rfl
  have cut : (packetOfKind kind dest seq code p).length - 2 = p.length + 6 := by rw [packetOfKind_length]; omega
  rw [checkPacket_fits (by rw [length, packetOfKind_length]; omega), cut, body, crc, if_pos rfl, length, payload]
  rfl

/-- A packet that passes is the written one of its own header fields and payload. -/
theorem packetOfKind_of_good {bytes p : List Byte} {dest : BitVec 4} {seq code : Byte}
    (good : checkPacket bytes = .good dest seq code p) :
    ∃ kind d : Byte, d.setWidth 4 = dest ∧ bytes = packetOfKind kind d seq code p := by
  by_cases fits : 8 ≤ bytes.length ∧ bytes.length = 6 + u16At bytes 4 + 2
  case neg => simp [checkPacket_badLength fits] at good
  rw [checkPacket_fits fits] at good
  split at good
  case isFalse => cases good
  case isTrue crc =>
  obtain ⟨rfl, rfl, rfl, rfl⟩ := PacketCheck.good.inj good
  obtain ⟨least, count⟩ := fits
  obtain ⟨kind, d, q, c, high, low, rest, rfl⟩ := exists_header ((by decide : 6 ≤ 8).trans least)
  have value : u16At (kind :: d :: q :: c :: high :: low :: rest) 4 = high.toNat * 256 + low.toNat := rfl
  generalize u16At (kind :: d :: q :: c :: high :: low :: rest) 4 = n at count value crc ⊢
  have size : (rest.take n).length = n := by
    simp only [List.length_cons, List.length_take] at count ⊢
    omega
  have cut : (kind :: d :: q :: c :: high :: low :: rest).length - 2 = n + 6 := by omega
  have body : (kind :: d :: q :: c :: high :: low :: rest).take (n + 6) = packetBody kind d q c (rest.take n) := by
    rw [packetBody, size, value, be16_of_bytes]
    rfl
  refine ⟨kind, d, rfl, ?_⟩
  rw [cut, body] at crc
  calc kind :: d :: q :: c :: high :: low :: rest
    _ = _ ++ (kind :: d :: q :: c :: high :: low :: rest).drop (n + 6) := (List.take_append_drop (n + 6) _).symm
    _ = packetOfKind kind d q c (rest.take n) := by rw [body, ← crc]; rfl

/-! ### Rows, codes and payloads -/

theorem commandOf_unlisted {code : Byte} (unlisted : code ∉ listedCodes) (how : Addressing) (seq : Byte) (p : List Byte) :
    commandOf how seq code p = .unknownCommandCode how seq code p := by
  simp only [listedCodes, List.mem_cons, List.not_mem_nil, or_false, not_or] at unlisted
  simp only [commandOf, unlisted, if_false]

/-- A COMMIT payload's row, by the mode byte. -/
theorem commandOf_commit (how : Addressing) (seq : Byte) {p : List Byte} (fits : p.length ≤ 248) :
    wellFormed (commandOf how seq codeCommit p) = true ∧
    carried (commandOf how seq codeCommit p) = some (how, seq, codeCommit, p) := by
  cases p with
  | nil => exact ⟨rfl, rfl⟩
  | cons m rest =>
    have room : rest.length ≤ 247 := Nat.le_of_succ_le_succ fits
    by_cases next : m = 0
    · subst next; exact ⟨decide_eq_true room, rfl⟩
    by_cases atTarget : m = 1
    · subst atTarget; exact ⟨decide_eq_true room, rfl⟩
    by_cases now : m = 2
    · subst now; exact ⟨decide_eq_true room, rfl⟩
    have other : commandOf how seq codeCommit (m :: rest) = .commitOtherMode how seq (m :: rest) := by
      show (if m = 0 then _ else if m = 1 then _ else if m = 2 then _ else _ : Instr) = _
      rw [if_neg next, if_neg atTarget, if_neg now]
    have mode : 2 < m.toNat := by bv_omega
    rw [other]
    exact ⟨Bool.and_eq_true_iff.mpr ⟨decide_eq_true fits, decide_eq_true mode⟩, rfl⟩

/-- The command that a code and a payload of a packet spell can arise, and carries them. -/
theorem commandOf_carries (how : Addressing) (seq code : Byte) {p : List Byte} (fits : p.length ≤ 248) :
    wellFormed (commandOf how seq code p) = true ∧ carried (commandOf how seq code p) = some (how, seq, code, p) := by
  by_cases listed : code ∈ listedCodes
  · have fits' : payloadFits p = true := decide_eq_true fits
    simp only [listedCodes, List.mem_cons, List.not_mem_nil, or_false] at listed
    rcases listed with rfl | rfl | rfl | rfl | rfl | rfl | rfl | rfl | rfl | rfl | rfl | rfl | rfl | rfl | rfl | rfl | rfl |
      rfl | rfl | rfl
    on_goal 9 => exact commandOf_commit how seq fits
    all_goals exact ⟨fits', rfl⟩
  · rw [commandOf_unlisted listed]
    exact ⟨by simp [wellFormed, payloadFits, fits, listed], rfl⟩

section
variable {i : Instr} {how : Addressing} {seq code : Byte} {p : List Byte} (row : carried i = some (how, seq, code, p))
include row

/-- What a well-formed host command carries spells it: the family CommandRoundTrip, row by row. -/
theorem commandOf_of_carried (wf : wellFormed i = true) : commandOf how seq code p = i := by
  open Laws.CommandRoundTrip in
  cases i with
  | hello => exact hello _ _ _ _ _ _ _ row wf
  | status => exact status _ _ _ _ _ _ _ row wf
  | setEvents => exact setEvents _ _ _ _ _ _ _ row wf
  | defineObject => exact defineObject _ _ _ _ _ _ _ row wf
  | moveObject => exact moveObject _ _ _ _ _ _ _ row wf
  | setObjectAttr => exact setObjectAttr _ _ _ _ _ _ _ row wf
  | deleteObject => exact deleteObject _ _ _ _ _ _ _ row wf
  | readObject => exact readObject _ _ _ _ _ _ _ row wf
  | commitNext => exact commitNext _ _ _ _ _ _ _ row wf
  | commitAt => exact commitAt _ _ _ _ _ _ _ row wf
  | commitNow => exact commitNow _ _ _ _ _ _ _ row wf
  | commitOtherMode => exact commitOtherMode _ _ _ _ _ _ _ row wf
  | cancelCommit => exact cancelCommit _ _ _ _ _ _ _ row wf
  | setMode => exact setMode _ _ _ _ _ _ _ row wf
  | discard => exact discard _ _ _ _ _ _ _ row wf
  | clearAll => exact clearAll _ _ _ _ _ _ _ row wf
  | createImage => exact createImage _ _ _ _ _ _ _ row wf
  | loadImage => exact loadImage _ _ _ _ _ _ _ row wf
  | restartImage => exact restartImage _ _ _ _ _ _ _ row wf
  | releaseImage => exact releaseImage _ _ _ _ _ _ _ row wf
  | imageInfo => exact imageInfo _ _ _ _ _ _ _ row wf
  | writePalette => exact writePalette _ _ _ _ _ _ _ row wf
  | readPalette => exact readPalette _ _ _ _ _ _ _ row wf
  | unknownCommandCode => exact unknownCommandCode _ _ _ _ _ _ _ _ row wf
  | _ => cases row

/-- The payload of a well-formed host command fits a packet, a COMMIT's mode byte counted in. -/
theorem payload_le_of_carried (wf : wellFormed i = true) : p.length ≤ 248 := by
  cases i <;> simp only [carried, Option.some.injEq, Prod.mk.injEq, reduceCtorEq] at row <;>
    obtain ⟨-, -, -, rfl⟩ := row
  case commitNext | commitAt | commitNow => exact Nat.succ_le_succ (of_decide_eq_true wf)
  case commitOtherMode | unknownCommandCode => exact of_decide_eq_true (Bool.and_eq_true_iff.mp wf).1
  all_goals exact of_decide_eq_true wf

end

/-! ### The destination -/

/-- The destination byte a host writes to reach the unit at `addr`: its address, or 15 for all units (R163). -/
def destinationByte (addr : BitVec 4) : Addressing → Byte
  | .unicast => addr.setWidth 8
  | .broadcast => 15

theorem encodeCommand_eq_some {addr : BitVec 4} {i : Instr} {bytes : List Byte} : encodeCommand addr i = some bytes ↔
    ∃ how seq code p, carried i = some (how, seq, code, p) ∧
      packetBytesOf (destinationByte addr how) seq code p = bytes := by
  constructor
  · intro written
    obtain ⟨⟨how, seq, code, p⟩, row, rfl⟩ := Option.map_eq_some_iff.mp written
    exact ⟨how, seq, code, p, row, by cases how <;> rfl⟩
  · rintro ⟨how, seq, code, p, row, rfl⟩
    exact Option.map_eq_some_iff.mpr ⟨_, row, by cases how <;> rfl⟩

/-- The low half of the destination byte is the destination field. -/
theorem destinationByte_field (addr : BitVec 4) : (destinationByte addr .unicast).setWidth 4 = addr :=
  BitVec.setWidth_setWidth_of_le addr (by decide) |>.trans (BitVec.setWidth_eq addr)

/-- A destination byte with the ignored bits 0 is told by its destination field. -/
theorem eq_destinationByte {d : Byte} {addr : BitVec 4} {how : Addressing} (ignored : d.toNat < 16)
    (field : d.setWidth 4 = (destinationByte addr how).setWidth 4) : d = destinationByte addr how := by
  have small : (destinationByte addr how).toNat < 16 := by
    cases how with
    | unicast => exact (BitVec.toNat_setWidth_of_le (by decide)).trans_lt addr.isLt
    | broadcast => exact (by decide : 15 < 16)
  bv_omega

/-- A good packet at a unit of the chain is decoded by its destination. -/
theorem decodeCommand_good {addr : BitVec 4} {bytes p : List Byte} {how : Addressing} {seq code : Byte} (unit : addr ≠ 15)
    (good : checkPacket bytes = .good ((destinationByte addr how).setWidth 4) seq code p) :
    decodeCommand addr bytes = some (commandOf how seq code p) := by
  rw [decodeCommand, good]
  cases how with
  | unicast => simp only [destinationByte_field, if_neg unit, if_pos]
  | broadcast => rfl

/-- What decodes to a command is a good packet that reaches the unit. -/
theorem good_of_decodeCommand {addr : BitVec 4} {bytes : List Byte} {i : Instr} (decoded : decodeCommand addr bytes = some i) :
    ∃ how seq code p, checkPacket bytes = .good ((destinationByte addr how).setWidth 4) seq code p ∧
      commandOf how seq code p = i := by
  unfold decodeCommand at decoded
  split at decoded
  next => cases decoded
  next => cases decoded
  next dest seq code p good =>
    split at decoded
    case isTrue all => exact ⟨.broadcast, seq, code, p, by rw [good, all]; rfl, Option.some.inj decoded⟩
    split at decoded
    case isTrue own => exact ⟨.unicast, seq, code, p, by rw [good, own, destinationByte_field], Option.some.inj decoded⟩
    case isFalse => cases decoded

end Sys2Proof.Machine
end

section
namespace Sys2Proof.PacketLayouts

open Sys2Proof.Machine

/-- The packet written for a well-formed host command decodes to it at its unit. -/
theorem decodeCommand_encodeCommand {addr : BitVec 4} {i : Instr} {bytes : List Byte} (unit : addr ≠ 15)
    (wf : wellFormed i = true) (written : encodeCommand addr i = some bytes) : decodeCommand addr bytes = some i := by
  obtain ⟨how, seq, code, p, row, rfl⟩ := encodeCommand_eq_some.mp written
  have short : p.length < 65536 := (payload_le_of_carried row wf).trans_lt (by decide)
  rw [← packetOfKind_command, decodeCommand_good unit (checkPacket_packetOfKind short ..), commandOf_of_carried row wf]

/-- A packet of kind 43h with the ignored destination bits 0 that decodes to a command is the one written for it. -/
theorem encodeCommand_decodeCommand {addr : BitVec 4} {i : Instr} {bytes : List Byte} (held : bytes.length ≤ 256)
    (decoded : decodeCommand addr bytes = some i) (command : bytes.head? = some kindCommand) (ignored : byteAt bytes 1 < 16) :
    wellFormed i = true ∧ encodeCommand addr i = some bytes := by
  obtain ⟨how, seq, code, p, good, rfl⟩ := good_of_decodeCommand decoded
  obtain ⟨kind, d, field, rfl⟩ := packetOfKind_of_good good
  obtain rfl : kind = kindCommand := Option.some.inj command
  have fits : p.length ≤ 248 := by rw [packetOfKind_length] at held; omega
  obtain ⟨wf, row⟩ := commandOf_carries how seq code fits
  obtain rfl : d = destinationByte addr how := eq_destinationByte ignored field
  exact ⟨wf, encodeCommand_eq_some.mpr ⟨how, seq, code, p, row, rfl⟩⟩

/-- Settles O3: `encodeCommand` and `decodeCommand` undo each other, since the checks accept the written packets alone. -/
theorem packetsAndCommandsAgree : Obligations.PacketsAndCommandsAgree :=
  ⟨fun _ _ _ => decodeCommand_encodeCommand, fun _ _ _ => encodeCommand_decodeCommand⟩

end Sys2Proof.PacketLayouts
end

section
namespace Sys2Proof.StepQueue

open Sys2Proof.Machine

/-- A step takes the command at the front off the queue before the command executes. -/
theorem step_of_pending_cons {c : Instr} {s : State} {rest : List Instr} (front : s.pending = c :: rest) :
    step s = exec c { s with pending := rest } := by
  rw [step, front]

/-- An empty queue answers the state itself (log entry 1). -/
theorem step_of_pending_nil {s : State} (empty : s.pending = []) : step s = .next s := by
  rw [step, empty]

/-- Settles O1: the two shapes of the queue are the two branches of `step`. -/
theorem stepRunsTheFrontCommand : Obligations.StepRunsTheFrontCommand :=
  ⟨fun _ _ _ => step_of_pending_cons, fun _ => step_of_pending_nil⟩

end Sys2Proof.StepQueue
end
